-- ==== Sys2Proof/Word.lean ====
section
/-!
DEFINITION. The word types of the hardware (spec 00_scope.md R6, R7): the 8-bit data byte and the
16-bit CPU address.
-/

namespace Sys2Proof

/-- A data byte: A, X, Y, S, a memory cell, one bus access (R6, R102). -/
abbrev Byte := BitVec 8

/-- A CPU bus address, also the width of PC (R6, R52, R104). -/
abbrev Addr := BitVec 16

end Sys2Proof
end

