-- ==== Sys2Proof/Syntax.lean ====
section
/-!
DEFINITION. The instruction set as syntax (30_encoding.md R200-R251): one constructor of Instr per
mnemonic of opcode_table.json, its operand forms an inductive that holds exactly the forms the
table gives that mnemonic, so that a form the table lacks cannot be written.
-/

namespace Sys2Proof

/-- The eight forms of LDA, ADC, SBC, AND, ORA, EOR and CMP (R301, R401-R406). -/
inductive LoadForm where
  | imm (b : Byte)
  | zp (z : Byte)
  | zpX (z : Byte)
  | abs (a : Addr)
  | absX (a : Addr)
  | absY (a : Addr)
  | indX (z : Byte)
  | indY (z : Byte)
  deriving DecidableEq, Repr

/-- The forms of LDX (R302). -/
inductive LdxForm where
  | imm (b : Byte)
  | zp (z : Byte)
  | zpY (z : Byte)
  | abs (a : Addr)
  | absY (a : Addr)
  deriving DecidableEq, Repr

/-- The forms of LDY (R303). -/
inductive LdyForm where
  | imm (b : Byte)
  | zp (z : Byte)
  | zpX (z : Byte)
  | abs (a : Addr)
  | absX (a : Addr)
  deriving DecidableEq, Repr

/-- The forms of CPX and CPY (R407, R408). -/
inductive CpForm where
  | imm (b : Byte)
  | zp (z : Byte)
  | abs (a : Addr)
  deriving DecidableEq, Repr

/-- The forms of BIT (R409). -/
inductive BitForm where
  | zp (z : Byte)
  | abs (a : Addr)
  deriving DecidableEq, Repr

/-- The forms of STA (R304). -/
inductive StaForm where
  | zp (z : Byte)
  | zpX (z : Byte)
  | abs (a : Addr)
  | absX (a : Addr)
  | absY (a : Addr)
  | indX (z : Byte)
  | indY (z : Byte)
  deriving DecidableEq, Repr

/-- The forms of STX (R305). -/
inductive StxForm where
  | zp (z : Byte)
  | zpY (z : Byte)
  | abs (a : Addr)
  deriving DecidableEq, Repr

/-- The forms of STY (R306). -/
inductive StyForm where
  | zp (z : Byte)
  | zpX (z : Byte)
  | abs (a : Addr)
  deriving DecidableEq, Repr

/-- The forms of ASL, LSR, ROL and ROR (R501-R504). -/
inductive ShiftForm where
  | acc
  | zp (z : Byte)
  | zpX (z : Byte)
  | abs (a : Addr)
  | absX (a : Addr)
  deriving DecidableEq, Repr

/-- The forms of INC and DEC (R410, R411). -/
inductive IncForm where
  | zp (z : Byte)
  | zpX (z : Byte)
  | abs (a : Addr)
  | absX (a : Addr)
  deriving DecidableEq, Repr

/-- The forms of JMP (R609). -/
inductive JmpForm where
  | abs (a : Addr)
  | ind (a : Addr)
  deriving DecidableEq, Repr

/-- An instruction: one constructor per mnemonic of opcode_table.json. -/
inductive Instr where
  -- load, store, transfer (40_load_store_transfer.md)
  | lda (o : LoadForm)
  | ldx (o : LdxForm)
  | ldy (o : LdyForm)
  | sta (o : StaForm)
  | stx (o : StxForm)
  | sty (o : StyForm)
  | tax
  | tay
  | txa
  | tya
  | tsx
  | txs
  -- arithmetic, logic, compare, increment (41_arithmetic_logic.md)
  | adc (o : LoadForm)
  | sbc (o : LoadForm)
  | and (o : LoadForm)
  | ora (o : LoadForm)
  | eor (o : LoadForm)
  | cmp (o : LoadForm)
  | cpx (o : CpForm)
  | cpy (o : CpForm)
  | bit (o : BitForm)
  | inc (o : IncForm)
  | dec (o : IncForm)
  | inx
  | iny
  | dex
  | dey
  -- shift, rotate (42_shift_rotate.md)
  | asl (o : ShiftForm)
  | lsr (o : ShiftForm)
  | rol (o : ShiftForm)
  | ror (o : ShiftForm)
  -- control transfer (43_control_transfer.md); `off` is the signed offset byte
  | bpl (off : Byte)
  | bmi (off : Byte)
  | bvc (off : Byte)
  | bvs (off : Byte)
  | bcc (off : Byte)
  | bcs (off : Byte)
  | bne (off : Byte)
  | beq (off : Byte)
  | jmp (o : JmpForm)
  | jsr (a : Addr)
  | rts
  -- stack, flags, system (44_stack_flags_system.md)
  | pha
  | pla
  | php
  | plp
  | clc
  | sec
  | cli
  | sei
  | cld
  | sed
  | clv
  /-- BRK with its padding byte (R712) -/
  | brk (pad : Byte)
  | rti
  | nop
  /-- an unknown opcode, by its value (R230, R715) -/
  | ill (op : Byte)
  deriving DecidableEq, Repr

end Sys2Proof
end

