-- ==== Sys2Proof/Decode.lean ====
section
/-!
DEFINITION. The decoder and the encoder (30_encoding.md R200-R203, R230, R250; opcode_table.json).
The opcode byte alone fixes the instruction, its form and its length (R201, R203); operand bytes
are little-endian (20_memory.md R100). After the decoder stands the encoder, written from the same
table, and the numbering of the table's bits that the host uses.
-/

namespace Sys2Proof

/-- `a:b` of R7: the 16-bit value with high byte `hi` and low byte `lo`. The one place where byte
order is decided (R100). -/
def word16 (hi lo : Byte) : Addr := hi ++ lo

/-- Bits 7:0 of a 16-bit value. -/
def loByte (w : Addr) : Byte := w.extractLsb' 0 8

/-- Bits 15:8 of a 16-bit value. -/
def hiByte (w : Addr) : Byte := w.extractLsb' 8 8

/-- The opcode map (R250): the instruction an opcode byte and its operand bytes stand for. `lo` is
the first operand byte, `hi` the second; an opcode that has fewer ignores the rest. Every value
outside the documented set is an unknown opcode (R230). -/
def decodeOp (op lo hi : Byte) : Instr :=
  match op.toNat with
  | 0x00 => .brk lo
  | 0x01 => .ora (.indX lo)
  | 0x05 => .ora (.zp lo)
  | 0x06 => .asl (.zp lo)
  | 0x08 => .php
  | 0x09 => .ora (.imm lo)
  | 0x0A => .asl .acc
  | 0x0D => .ora (.abs (word16 hi lo))
  | 0x0E => .asl (.abs (word16 hi lo))
  | 0x10 => .bpl lo
  | 0x11 => .ora (.indY lo)
  | 0x15 => .ora (.zpX lo)
  | 0x16 => .asl (.zpX lo)
  | 0x18 => .clc
  | 0x19 => .ora (.absY (word16 hi lo))
  | 0x1D => .ora (.absX (word16 hi lo))
  | 0x1E => .asl (.absX (word16 hi lo))
  | 0x20 => .jsr (word16 hi lo)
  | 0x21 => .and (.indX lo)
  | 0x24 => .bit (.zp lo)
  | 0x25 => .and (.zp lo)
  | 0x26 => .rol (.zp lo)
  | 0x28 => .plp
  | 0x29 => .and (.imm lo)
  | 0x2A => .rol .acc
  | 0x2C => .bit (.abs (word16 hi lo))
  | 0x2D => .and (.abs (word16 hi lo))
  | 0x2E => .rol (.abs (word16 hi lo))
  | 0x30 => .bmi lo
  | 0x31 => .and (.indY lo)
  | 0x35 => .and (.zpX lo)
  | 0x36 => .rol (.zpX lo)
  | 0x38 => .sec
  | 0x39 => .and (.absY (word16 hi lo))
  | 0x3D => .and (.absX (word16 hi lo))
  | 0x3E => .rol (.absX (word16 hi lo))
  | 0x40 => .rti
  | 0x41 => .eor (.indX lo)
  | 0x45 => .eor (.zp lo)
  | 0x46 => .lsr (.zp lo)
  | 0x48 => .pha
  | 0x49 => .eor (.imm lo)
  | 0x4A => .lsr .acc
  | 0x4C => .jmp (.abs (word16 hi lo))
  | 0x4D => .eor (.abs (word16 hi lo))
  | 0x4E => .lsr (.abs (word16 hi lo))
  | 0x50 => .bvc lo
  | 0x51 => .eor (.indY lo)
  | 0x55 => .eor (.zpX lo)
  | 0x56 => .lsr (.zpX lo)
  | 0x58 => .cli
  | 0x59 => .eor (.absY (word16 hi lo))
  | 0x5D => .eor (.absX (word16 hi lo))
  | 0x5E => .lsr (.absX (word16 hi lo))
  | 0x60 => .rts
  | 0x61 => .adc (.indX lo)
  | 0x65 => .adc (.zp lo)
  | 0x66 => .ror (.zp lo)
  | 0x68 => .pla
  | 0x69 => .adc (.imm lo)
  | 0x6A => .ror .acc
  | 0x6C => .jmp (.ind (word16 hi lo))
  | 0x6D => .adc (.abs (word16 hi lo))
  | 0x6E => .ror (.abs (word16 hi lo))
  | 0x70 => .bvs lo
  | 0x71 => .adc (.indY lo)
  | 0x75 => .adc (.zpX lo)
  | 0x76 => .ror (.zpX lo)
  | 0x78 => .sei
  | 0x79 => .adc (.absY (word16 hi lo))
  | 0x7D => .adc (.absX (word16 hi lo))
  | 0x7E => .ror (.absX (word16 hi lo))
  | 0x81 => .sta (.indX lo)
  | 0x84 => .sty (.zp lo)
  | 0x85 => .sta (.zp lo)
  | 0x86 => .stx (.zp lo)
  | 0x88 => .dey
  | 0x8A => .txa
  | 0x8C => .sty (.abs (word16 hi lo))
  | 0x8D => .sta (.abs (word16 hi lo))
  | 0x8E => .stx (.abs (word16 hi lo))
  | 0x90 => .bcc lo
  | 0x91 => .sta (.indY lo)
  | 0x94 => .sty (.zpX lo)
  | 0x95 => .sta (.zpX lo)
  | 0x96 => .stx (.zpY lo)
  | 0x98 => .tya
  | 0x99 => .sta (.absY (word16 hi lo))
  | 0x9A => .txs
  | 0x9D => .sta (.absX (word16 hi lo))
  | 0xA0 => .ldy (.imm lo)
  | 0xA1 => .lda (.indX lo)
  | 0xA2 => .ldx (.imm lo)
  | 0xA4 => .ldy (.zp lo)
  | 0xA5 => .lda (.zp lo)
  | 0xA6 => .ldx (.zp lo)
  | 0xA8 => .tay
  | 0xA9 => .lda (.imm lo)
  | 0xAA => .tax
  | 0xAC => .ldy (.abs (word16 hi lo))
  | 0xAD => .lda (.abs (word16 hi lo))
  | 0xAE => .ldx (.abs (word16 hi lo))
  | 0xB0 => .bcs lo
  | 0xB1 => .lda (.indY lo)
  | 0xB4 => .ldy (.zpX lo)
  | 0xB5 => .lda (.zpX lo)
  | 0xB6 => .ldx (.zpY lo)
  | 0xB8 => .clv
  | 0xB9 => .lda (.absY (word16 hi lo))
  | 0xBA => .tsx
  | 0xBC => .ldy (.absX (word16 hi lo))
  | 0xBD => .lda (.absX (word16 hi lo))
  | 0xBE => .ldx (.absY (word16 hi lo))
  | 0xC0 => .cpy (.imm lo)
  | 0xC1 => .cmp (.indX lo)
  | 0xC4 => .cpy (.zp lo)
  | 0xC5 => .cmp (.zp lo)
  | 0xC6 => .dec (.zp lo)
  | 0xC8 => .iny
  | 0xC9 => .cmp (.imm lo)
  | 0xCA => .dex
  | 0xCC => .cpy (.abs (word16 hi lo))
  | 0xCD => .cmp (.abs (word16 hi lo))
  | 0xCE => .dec (.abs (word16 hi lo))
  | 0xD0 => .bne lo
  | 0xD1 => .cmp (.indY lo)
  | 0xD5 => .cmp (.zpX lo)
  | 0xD6 => .dec (.zpX lo)
  | 0xD8 => .cld
  | 0xD9 => .cmp (.absY (word16 hi lo))
  | 0xDD => .cmp (.absX (word16 hi lo))
  | 0xDE => .dec (.absX (word16 hi lo))
  | 0xE0 => .cpx (.imm lo)
  | 0xE1 => .sbc (.indX lo)
  | 0xE4 => .cpx (.zp lo)
  | 0xE5 => .sbc (.zp lo)
  | 0xE6 => .inc (.zp lo)
  | 0xE8 => .inx
  | 0xE9 => .sbc (.imm lo)
  | 0xEA => .nop
  | 0xEC => .cpx (.abs (word16 hi lo))
  | 0xED => .sbc (.abs (word16 hi lo))
  | 0xEE => .inc (.abs (word16 hi lo))
  | 0xF0 => .beq lo
  | 0xF1 => .sbc (.indY lo)
  | 0xF5 => .sbc (.zpX lo)
  | 0xF6 => .inc (.zpX lo)
  | 0xF8 => .sed
  | 0xF9 => .sbc (.absY (word16 hi lo))
  | 0xFD => .sbc (.absX (word16 hi lo))
  | 0xFE => .inc (.absX (word16 hi lo))
  | _ => .ill op

/-- A three-byte instruction: the opcode, address bits 7:0, address bits 15:8 (R202). -/
def enc3 (op : Byte) (a : Addr) : List Byte := [op, loByte a, hiByte a]

/-- The bytes of an instruction in address order (R202, R250). -/
def encode : Instr → List Byte
  | .lda (.indX z) => [0xA1, z]
  | .lda (.zp z) => [0xA5, z]
  | .lda (.imm b) => [0xA9, b]
  | .lda (.abs a) => enc3 0xAD a
  | .lda (.indY z) => [0xB1, z]
  | .lda (.zpX z) => [0xB5, z]
  | .lda (.absY a) => enc3 0xB9 a
  | .lda (.absX a) => enc3 0xBD a
  | .ldx (.imm b) => [0xA2, b]
  | .ldx (.zp z) => [0xA6, z]
  | .ldx (.abs a) => enc3 0xAE a
  | .ldx (.zpY z) => [0xB6, z]
  | .ldx (.absY a) => enc3 0xBE a
  | .ldy (.imm b) => [0xA0, b]
  | .ldy (.zp z) => [0xA4, z]
  | .ldy (.abs a) => enc3 0xAC a
  | .ldy (.zpX z) => [0xB4, z]
  | .ldy (.absX a) => enc3 0xBC a
  | .sta (.indX z) => [0x81, z]
  | .sta (.zp z) => [0x85, z]
  | .sta (.abs a) => enc3 0x8D a
  | .sta (.indY z) => [0x91, z]
  | .sta (.zpX z) => [0x95, z]
  | .sta (.absY a) => enc3 0x99 a
  | .sta (.absX a) => enc3 0x9D a
  | .stx (.zp z) => [0x86, z]
  | .stx (.abs a) => enc3 0x8E a
  | .stx (.zpY z) => [0x96, z]
  | .sty (.zp z) => [0x84, z]
  | .sty (.abs a) => enc3 0x8C a
  | .sty (.zpX z) => [0x94, z]
  | .tax => [0xAA]
  | .tay => [0xA8]
  | .txa => [0x8A]
  | .tya => [0x98]
  | .tsx => [0xBA]
  | .txs => [0x9A]
  | .adc (.indX z) => [0x61, z]
  | .adc (.zp z) => [0x65, z]
  | .adc (.imm b) => [0x69, b]
  | .adc (.abs a) => enc3 0x6D a
  | .adc (.indY z) => [0x71, z]
  | .adc (.zpX z) => [0x75, z]
  | .adc (.absY a) => enc3 0x79 a
  | .adc (.absX a) => enc3 0x7D a
  | .sbc (.indX z) => [0xE1, z]
  | .sbc (.zp z) => [0xE5, z]
  | .sbc (.imm b) => [0xE9, b]
  | .sbc (.abs a) => enc3 0xED a
  | .sbc (.indY z) => [0xF1, z]
  | .sbc (.zpX z) => [0xF5, z]
  | .sbc (.absY a) => enc3 0xF9 a
  | .sbc (.absX a) => enc3 0xFD a
  | .and (.indX z) => [0x21, z]
  | .and (.zp z) => [0x25, z]
  | .and (.imm b) => [0x29, b]
  | .and (.abs a) => enc3 0x2D a
  | .and (.indY z) => [0x31, z]
  | .and (.zpX z) => [0x35, z]
  | .and (.absY a) => enc3 0x39 a
  | .and (.absX a) => enc3 0x3D a
  | .ora (.indX z) => [0x01, z]
  | .ora (.zp z) => [0x05, z]
  | .ora (.imm b) => [0x09, b]
  | .ora (.abs a) => enc3 0x0D a
  | .ora (.indY z) => [0x11, z]
  | .ora (.zpX z) => [0x15, z]
  | .ora (.absY a) => enc3 0x19 a
  | .ora (.absX a) => enc3 0x1D a
  | .eor (.indX z) => [0x41, z]
  | .eor (.zp z) => [0x45, z]
  | .eor (.imm b) => [0x49, b]
  | .eor (.abs a) => enc3 0x4D a
  | .eor (.indY z) => [0x51, z]
  | .eor (.zpX z) => [0x55, z]
  | .eor (.absY a) => enc3 0x59 a
  | .eor (.absX a) => enc3 0x5D a
  | .cmp (.indX z) => [0xC1, z]
  | .cmp (.zp z) => [0xC5, z]
  | .cmp (.imm b) => [0xC9, b]
  | .cmp (.abs a) => enc3 0xCD a
  | .cmp (.indY z) => [0xD1, z]
  | .cmp (.zpX z) => [0xD5, z]
  | .cmp (.absY a) => enc3 0xD9 a
  | .cmp (.absX a) => enc3 0xDD a
  | .cpx (.imm b) => [0xE0, b]
  | .cpx (.zp z) => [0xE4, z]
  | .cpx (.abs a) => enc3 0xEC a
  | .cpy (.imm b) => [0xC0, b]
  | .cpy (.zp z) => [0xC4, z]
  | .cpy (.abs a) => enc3 0xCC a
  | .bit (.zp z) => [0x24, z]
  | .bit (.abs a) => enc3 0x2C a
  | .inc (.zp z) => [0xE6, z]
  | .inc (.abs a) => enc3 0xEE a
  | .inc (.zpX z) => [0xF6, z]
  | .inc (.absX a) => enc3 0xFE a
  | .dec (.zp z) => [0xC6, z]
  | .dec (.abs a) => enc3 0xCE a
  | .dec (.zpX z) => [0xD6, z]
  | .dec (.absX a) => enc3 0xDE a
  | .inx => [0xE8]
  | .iny => [0xC8]
  | .dex => [0xCA]
  | .dey => [0x88]
  | .asl (.zp z) => [0x06, z]
  | .asl .acc => [0x0A]
  | .asl (.abs a) => enc3 0x0E a
  | .asl (.zpX z) => [0x16, z]
  | .asl (.absX a) => enc3 0x1E a
  | .lsr (.zp z) => [0x46, z]
  | .lsr .acc => [0x4A]
  | .lsr (.abs a) => enc3 0x4E a
  | .lsr (.zpX z) => [0x56, z]
  | .lsr (.absX a) => enc3 0x5E a
  | .rol (.zp z) => [0x26, z]
  | .rol .acc => [0x2A]
  | .rol (.abs a) => enc3 0x2E a
  | .rol (.zpX z) => [0x36, z]
  | .rol (.absX a) => enc3 0x3E a
  | .ror (.zp z) => [0x66, z]
  | .ror .acc => [0x6A]
  | .ror (.abs a) => enc3 0x6E a
  | .ror (.zpX z) => [0x76, z]
  | .ror (.absX a) => enc3 0x7E a
  | .bpl off => [0x10, off]
  | .bmi off => [0x30, off]
  | .bvc off => [0x50, off]
  | .bvs off => [0x70, off]
  | .bcc off => [0x90, off]
  | .bcs off => [0xB0, off]
  | .bne off => [0xD0, off]
  | .beq off => [0xF0, off]
  | .jmp (.abs a) => enc3 0x4C a
  | .jmp (.ind a) => enc3 0x6C a
  | .jsr a => enc3 0x20 a
  | .rts => [0x60]
  | .pha => [0x48]
  | .pla => [0x68]
  | .php => [0x08]
  | .plp => [0x28]
  | .clc => [0x18]
  | .sec => [0x38]
  | .cli => [0x58]
  | .sei => [0x78]
  | .cld => [0xD8]
  | .sed => [0xF8]
  | .clv => [0xB8]
  | .brk p => [0x00, p]
  | .rti => [0x40]
  | .nop => [0xEA]
  | .ill op => [op]

/-- The length in bytes (R201; BRK is 2, R712). -/
def Instr.length (i : Instr) : Nat := (encode i).length

/-- The length as the opcode byte alone fixes it (R201). -/
def opLength (op : Byte) : Nat := (decodeOp op 0 0).length

/-- Why a list of bytes is not an instruction. No opcode is refused (R231): only a list that ends
too early is. -/
inductive DecodeError where
  /-- no byte at all -/
  | noOpcode
  /-- the operand bytes of this opcode are missing -/
  | truncated (op : Byte)
  deriving DecidableEq, Repr

/-- Read one instruction from the front of a list of bytes; the rest of the list is handed back. -/
def decode : List Byte → Except DecodeError (Instr × List Byte)
  | [] => .error .noOpcode
  | op :: rest =>
    if opLength op = 1 then .ok (decodeOp op 0 0, rest)
    else match rest with
      | [] => .error (.truncated op)
      | lo :: rest =>
        if opLength op = 2 then .ok (decodeOp op lo 0, rest)
        else match rest with
          | [] => .error (.truncated op)
          | hi :: rest => .ok (decodeOp op lo hi, rest)

/-- The three bytes at the lowest addresses of an instruction whose bits are `w`, numbered as
opcode_table.json numbers them (bit 0 the least significant bit of the first byte); bits from
`nbits` up are 0. Three bytes are the longest instruction (R203). -/
def tableBytes (nbits w : Nat) : List Byte :=
  [BitVec.ofNat 8 (w % 2 ^ nbits), BitVec.ofNat 8 (w % 2 ^ nbits / 2 ^ 8), BitVec.ofNat 8 (w % 2 ^ nbits / 2 ^ 16)]

/-- The instruction the decoder reads from a table word. -/
def decodeTableWord (nbits w : Nat) : Option Instr :=
  match decode (tableBytes nbits w) with
  | .ok (i, _) => some i
  | .error _ => none

end Sys2Proof
end

