-- ==== Sys2Proof/Config.lean ====
section
/-!
DEFINITION. What the spec leaves to the implementation or the host (00_scope.md R6, 92_eei_decisions.md
OPEN rows), and the free values ("draws", R12). The single-valued parameters are plain data that the
machine takes as an argument (a field of State, log 7); the others are constants with no body, so
no proof can see what they are.
-/

namespace Sys2Proof

/-- CYCLE_PENALTIES (R6, R921, D13). -/
inductive CyclePenalties where
  | none
  | nmos
  deriving DecidableEq, Repr, Inhabited

/-- MASKED_IRQ_POLICY (R6, R815, D10). -/
inductive MaskedIrqPolicy where
  | retain
  | drop
  deriving DecidableEq, Repr, Inhabited

/-- The OPEN parameters of R6 that are one value each. No step changes them. The spec gives CPU_CLOCK_HZ and
SAMPLE_RATE no type: that they are whole numbers of Hz is the model's DESIGN CHOICE (log 7), so a fractional clock
cannot be expressed. -/
structure Params where
  /-- CYCLE_PENALTIES, suggested `nmos` (D13). -/
  penalties : CyclePenalties
  /-- MASKED_IRQ_POLICY (D10). -/
  maskedIrq : MaskedIrqPolicy
  /-- DMA_STALL_CYCLES, suggested 513 (D45). -/
  dmaStall : Nat
  /-- CPU_CLOCK_HZ, suggested 1789773 (D56). -/
  cpuClockHz : Nat
  /-- SAMPLE_RATE, chosen by the caller (D56). -/
  sampleRate : Nat
  deriving DecidableEq, Repr

/-- The two points of a scanline, both between `run` calls, at which the host may act (R904, R950; log 9). -/
inductive HostPoint where
  /-- just before the line's `run` call -/
  | beforeRun
  /-- just after the line's `run` call, before the driver's own end-of-line actions -/
  | afterRun
  deriving DecidableEq, Repr, Inhabited

/-- What the host may do between `run` calls (R950). -/
inductive HostEvent where
  /-- `createSound` with a buffer of `n` samples (R1103; SYNTH_SCHEDULE, D56) -/
  | createSound (n : Nat)
  /-- `Request(RESET)` (R811) -/
  | requestReset
  /-- the contract operation `reset()` (R900) -/
  | reset
  /-- set the frame driver's stop flag (R1262) -/
  | stop
  deriving DecidableEq, Repr, Inhabited

/-- The free values (draws, R12): the value of the k-th draw the machine makes (log 6). -/
opaque Config.freeByte : Nat → Byte

/-- SCANLINE_BUDGET(frame, line), an i32 (R6, R903, D42; log 8). -/
opaque Config.scanlineBudget : Nat → Nat → BitVec 32

/-- What the host does at a point of a line of a frame, in order (R950, D56, U19, U22; log 9). -/
opaque Config.hostEvents : Nat → Nat → HostPoint → List HostEvent

/-- The host's button snapshot of a pad for a frame, button A first (R1210, R1260; log 10). -/
opaque Config.padInput : Nat → Fin 2 → Vector Bool 8

/-- MIX of the outputs of pulse 1, pulse 2, triangle, noise and DMC (R1103, D57). The spec gives its value no type: a
whole number is the model's DESIGN CHOICE (log 11), so a mixer with fractional values cannot be expressed. -/
opaque Config.mix : Nat → Nat → Nat → Nat → Nat → Int

/-- Which CPU cycles clock the pulse timers: those whose number plus this is even (R1104; log 15). -/
opaque Config.pulsePhase : Nat

/-- ILLEGAL_CYCLES (R6, D12). -/
def illegalCycles : Nat := 2

/-- SPRITE_Y_OFFSET (R6, D36). -/
def spriteYOffset : Nat := 1

end Sys2Proof
end

