-- ==== Sys2Proof/Machine/State.lean ====
section
/-!
DEFINITION. The machine's state as plain data: every piece of state spec 10_state.md R50-R75 names,
under the spec's names, and the state right after reset. Behaviour is in the other files of Machine/.
-/

namespace Sys2Proof.Machine

/-! ### Memory -/

/-- A store: (address, byte) pairs. Canonical form (`Memory.wf`): addresses strictly rising, no entry
equal to what an unlisted address reads as. Each memory of the machine (RAM, SRAM, nametables,
palette, OAM, framebuffer, PRG, CHR) is one such store with its own index range. -/
abbrev Memory := List Host.Cell

/-- What an unlisted index of a store reads as (DESIGN CHOICE, unsafe: the spec's power-on contents
are draws, D23; log 2). -/
def Memory.unlisted : Byte := 0x00

/-! ### CPU (10_state.md R50-R64) -/

/-- The seven condition flags, seven separate bits (R53). -/
structure Flags where
  /-- carry (R55) -/
  c : Bool
  /-- zero (R56) -/
  z : Bool
  /-- interrupt-disable (R57) -/
  i : Bool
  /-- decimal (R58) -/
  d : Bool
  /-- break (R59) -/
  b : Bool
  /-- overflow (R60) -/
  v : Bool
  /-- negative (R56) -/
  n : Bool
  deriving DecidableEq, Repr

/-- The requests the pending slot can hold (R61); the empty slot is `none`. -/
inductive Interrupt where
  | nmi
  | irq
  | reset
  deriving DecidableEq, Repr

/-- One entry of the diagnostic log: the opcode byte and the address it was fetched from (R64). -/
structure Diagnostic where
  opcode : Byte
  addr : Addr
  deriving DecidableEq, Repr

/-! ### PPU (R67-R69) -/

/-- The logical-to-physical nametable map, each entry one of the four buffers (R67). -/
structure NtMap where
  n0 : Fin 4
  n1 : Fin 4
  n2 : Fin 4
  n3 : Fin 4
  deriving DecidableEq, Repr

/-- The PPU's registers, latches and memories (R67-R69). -/
structure Ppu where
  /-- nametable buffers: byte `o` of buffer `k` is at index `1024*k + o` -/
  nt : Memory
  ntmap : NtMap
  /-- palette RAM, indices 0..31 -/
  pal : Memory
  /-- OAM, indices 0..255 -/
  oam : Memory
  /-- current VRAM address -/
  v : BitVec 15
  /-- temporary address -/
  t : BitVec 15
  /-- fine X scroll -/
  x : BitVec 3
  /-- write toggle -/
  w : Bool
  /-- PPUCTRL (R1020) -/
  ctrl : Byte
  /-- PPUMASK (R1021) -/
  mask : Byte
  vblank : Bool
  sprite0hit : Bool
  sprOverflow : Bool
  oamaddr : Byte
  /-- the $2007 read-ahead buffer -/
  rdbuf : Byte
  deriving DecidableEq, Repr

/-! ### APU (R70) -/

/-- An envelope unit (R1111). -/
structure Envelope where
  start : Bool
  divider : BitVec 4
  decay : BitVec 4
  deriving DecidableEq, Repr

/-- A pulse channel (R70, R1110-R1113). R70 gives `swDivider` and the counter `timer` no width; 3 and 11 bits, those
of the periods loaded into them, are a DESIGN CHOICE (log 24). -/
structure Pulse where
  period : BitVec 11
  timer : BitVec 11
  duty : BitVec 2
  step : BitVec 3
  length : Byte
  enabled : Bool
  /-- length halt / envelope loop -/
  halt : Bool
  constant : Bool
  volume : BitVec 4
  env : Envelope
  swEnable : Bool
  swPeriod : BitVec 3
  swNegate : Bool
  swShift : BitVec 3
  swDivider : BitVec 3
  swReload : Bool
  deriving DecidableEq, Repr

/-- The triangle channel (R70, R1130-R1132). The counter `timer` has the 11 bits of its period (log 24). -/
structure Triangle where
  period : BitVec 11
  timer : BitVec 11
  step : BitVec 5
  length : Byte
  enabled : Bool
  control : Bool
  linear : BitVec 7
  linearReload : BitVec 7
  reloadFlag : Bool
  deriving DecidableEq, Repr

/-- The noise channel (R70, R1140, R1141). R70 gives `timer` no width; 12 bits, the least
that hold every period of R1105, are a DESIGN CHOICE (log 24). -/
structure Noise where
  periodIdx : BitVec 4
  timer : BitVec 12
  mode : Bool
  lfsr : BitVec 15
  length : Byte
  enabled : Bool
  /-- length halt / envelope loop -/
  halt : Bool
  constant : Bool
  volume : BitVec 4
  env : Envelope
  deriving DecidableEq, Repr

/-- The delta modulation channel (R70, R1150, R1151, R1160). R70 gives `timer`, `addrLatch`, `lenLatch`, `bytesLeft` and
`bitsLeft` no width; 9, 16, 12, 12 and 4 bits, the least that hold what R1105, R1150 and R1151 load into them, are a
DESIGN CHOICE (log 24). -/
structure Dmc where
  irqEnable : Bool
  loop : Bool
  rateIdx : BitVec 4
  timer : BitVec 9
  addrLatch : Addr
  lenLatch : BitVec 12
  addr : Addr
  /-- R1151's `remaining`: sample bytes left to fetch -/
  bytesLeft : BitVec 12
  shift : Byte
  bitsLeft : BitVec 4
  counter : BitVec 6
  lsb : Bool
  irq : Bool
  silent : Bool
  deriving DecidableEq, Repr

/-- A deferred APU register write: (timestamp on the CPU master clock, port address, value) (R1101). -/
structure DeferredWrite where
  ts : Nat
  addr : Addr
  val : Byte
  deriving DecidableEq, Repr

/-- The APU (R70). `cursor` and `facc` count in units of 1/SAMPLE_RATE of a CPU cycle and of
R1104's accumulator (log 18). -/
structure Apu where
  pulse1 : Pulse
  pulse2 : Pulse
  triangle : Triangle
  noise : Noise
  dmc : Dmc
  /-- oldest first -/
  queue : List DeferredWrite
  /-- the frame-sequencer accumulator (R1104) -/
  facc : Nat
  /-- the frame-sequencer step: the next quarter-frame clock is also a half-frame clock (R1104) -/
  half : Bool
  /-- the applied $4017 value (R1180) -/
  frameLatch : Byte
  /-- the CPU-clock time up to which audio has been synthesised -/
  cursor : Nat
  /-- the model's own: the samples of the last block (R1103; log 20) -/
  sound : List Int
  deriving DecidableEq, Repr

/-! ### Joypads, frame driver (R71, R72) -/

/-- The joypad shift registers (R71). -/
structure Pads where
  snap0 : Vector Bool 8
  snap1 : Vector Bool 8
  /-- read index of pad 0, 0..8 -/
  idx0 : Nat
  /-- read index of pad 1, 0..8 -/
  idx1 : Nat
  strobe : Bool
  deriving DecidableEq, Repr

/-- Where the frame driver stands in R1250's loop (the model's own; log 12). -/
inductive Phase where
  /-- about to start the current line -/
  | lineStart
  /-- inside the current line's `run` call -/
  | running
  /-- the host's stop flag ended the run at a frame boundary (R1262) -/
  | ended
  deriving DecidableEq, Repr

/-- The frame driver (R72). -/
structure Frame where
  /-- the scanline index, 0..261 -/
  line : Nat
  /-- frames completed -/
  count : Nat
  /-- the framebuffer: palette byte of pixel `x` of line `l` at index `256*l + x` -/
  fb : Memory
  /-- the host's stop flag -/
  stop : Bool
  /-- the model's own: the picture last handed to the display sink (R1261; log 20) -/
  display : Memory
  phase : Phase
  deriving DecidableEq, Repr

/-! ### Mapper and cartridge (R73, R74) -/

/-- The registers of the shift-register-programmed variant (R73, R1325). -/
structure Mmc1 where
  shift : BitVec 5
  /-- bits shifted in so far, 0..4 -/
  count : Nat
  control : BitVec 5
  chr0 : BitVec 5
  chr1 : BitVec 5
  prg : BitVec 4
  deriving DecidableEq, Repr

/-- The four mapper variants and their bank registers, a closed sum (R73, R1332). -/
inductive MapperRegs where
  | fixedBank
  | chrBankSelect (chrBank : Nat)
  | prgBankSelect (prgBank : Nat)
  | shiftReg (r : Mmc1)
  deriving DecidableEq, Repr

/-- The window table: byte offsets into PRG and CHR (R1300). -/
structure Windows where
  prg0 : Nat
  prg1 : Nat
  chr0 : Nat
  chr1 : Nat
  deriving DecidableEq, Repr

/-- The mapper's state (R73). -/
structure Mapper where
  regs : MapperRegs
  win : Windows
  deriving DecidableEq, Repr

/-- The cartridge image as the core receives it (R1330): a parameter of the spec's model (R74), held
as data. `chr` is CHR RAM, and writable, when `chrPages = 0`. -/
structure Cartridge where
  prgPages : Nat
  chrPages : Nat
  /-- header byte 6 bit 0: vertical mirroring (R1331) -/
  mirrorV : Bool
  /-- header byte 6 bit 3: four-screen (R1331) -/
  fourScreen : Bool
  /-- header byte 6 bit 1: SRAM present (D25) -/
  hasSram : Bool
  prg : Memory
  chr : Memory
  deriving DecidableEq, Repr

/-! ### The outcomes that stop -/

/-- Why the machine stops with a fault. There is no constructor: the spec has no fault and no stuck
state, its step function is total (60_exceptions.md R801, R112), so nothing raises one (safe). -/
inductive Fault where
  deriving DecidableEq, Repr

/-- Why the model refuses. -/
inductive Refusal where
  /-- Raised only by an arm of Dispatch.lean for an instruction that has no meaning yet, by its
  mnemonic; no arm does now (safe). -/
  | notModelled (mnemonic : String)
  deriving DecidableEq, Repr

/-! ### The whole state -/

/-- The machine (10_state.md). -/
structure State where
  /-- accumulator A (R50) -/
  a : Byte
  /-- index X (R50) -/
  x : Byte
  /-- index Y (R50) -/
  y : Byte
  /-- stack pointer S, an offset into page 1 (R51) -/
  sp : Byte
  /-- program counter PC (R52) -/
  pc : Addr
  flags : Flags
  /-- the pending-interrupt slot (R61) -/
  pending : Option Interrupt
  /-- the signed remaining-cycle counter: R62 says "at least 32 bits"; unbounded is a DESIGN CHOICE (log 27) -/
  remaining : Int
  /-- the CPU master clock (R63) -/
  clock : Nat
  /-- cycles charged so far in the current iteration (R903, R905) -/
  cost : Nat
  /-- the diagnostic log, oldest first (R64) -/
  diag : List Diagnostic
  /-- internal RAM, indices 0..0x7FF (R65) -/
  ram : Memory
  /-- cartridge SRAM, indices 0..0x1FFF (R66) -/
  sram : Memory
  ppu : Ppu
  apu : Apu
  pads : Pads
  frame : Frame
  mapper : Mapper
  cart : Cartridge
  /-- the OPEN parameters (R6; log 7) -/
  params : Params
  /-- how many free values have been drawn (R12; log 6) -/
  draws : Nat
  deriving DecidableEq, Repr

/-! ### Reset values (R75) -/

/-- An envelope at power-on: draws in the spec (D68); DESIGN CHOICE 0, log 4. -/
def Envelope.reset : Envelope := { start := false, divider := 0, decay := 0 }

/-- A pulse channel at power-on: draws in the spec (D68); DESIGN CHOICE 0, log 4. -/
def Pulse.reset : Pulse :=
  { period := 0, timer := 0, duty := 0, step := 0, length := 0, enabled := false, halt := false,
    constant := false, volume := 0, env := Envelope.reset, swEnable := false, swPeriod := 0,
    swNegate := false, swShift := 0, swDivider := 0, swReload := false }

/-- The triangle channel at power-on: draws in the spec (D68); DESIGN CHOICE 0, log 4. -/
def Triangle.reset : Triangle :=
  { period := 0, timer := 0, step := 0, length := 0, enabled := false, control := false, linear := 0,
    linearReload := 0, reloadFlag := false }

/-- The noise channel at power-on: the LFSR is 1 (R70); the rest draws in the spec, DESIGN CHOICE 0, log 4. -/
def Noise.reset : Noise :=
  { periodIdx := 0, timer := 0, mode := false, lfsr := 1, length := 0, enabled := false, halt := false,
    constant := false, volume := 0, env := Envelope.reset }

/-- The DMC at power-on: draws in the spec (D68); DESIGN CHOICE 0, log 4. -/
def Dmc.reset : Dmc :=
  { irqEnable := false, loop := false, rateIdx := 0, timer := 0, addrLatch := 0, lenLatch := 0, addr := 0,
    bytesLeft := 0, shift := 0, bitsLeft := 0, counter := 0, lsb := false, irq := false, silent := false }

/-- The APU at power-on: the queue empty and the cursor 0 (R70); the rest draws in the spec,
DESIGN CHOICE 0, log 4. -/
def Apu.reset : Apu :=
  { pulse1 := Pulse.reset, pulse2 := Pulse.reset, triangle := Triangle.reset, noise := Noise.reset,
    dmc := Dmc.reset, queue := [], facc := 0, half := false, frameLatch := 0, cursor := 0, sound := [] }

/-- The PPU at power-on: `sprOverflow` 0 (R1045), horizontal mirroring from the blank cartridge
(R1331; log 5); the rest draws in the spec, DESIGN CHOICE 0, log 2 and log 3. -/
def Ppu.reset : Ppu :=
  { nt := [], ntmap := { n0 := 0, n1 := 0, n2 := 1, n3 := 1 }, pal := [], oam := [], v := 0, t := 0, x := 0,
    w := false, ctrl := 0, mask := 0, vblank := false, sprite0hit := false, sprOverflow := false,
    oamaddr := 0, rdbuf := 0 }

/-- The joypads at power-on (R71). -/
def Pads.reset : Pads :=
  { snap0 := Vector.replicate 8 false, snap1 := Vector.replicate 8 false, idx0 := 0, idx1 := 0, strobe := false }

/-- The frame driver at power-on (R72). -/
def Frame.reset : Frame :=
  { line := 0, count := 0, fb := [], stop := false, display := [], phase := .lineStart }

/-- The cartridge of `State.reset`: one blank PRG page, CHR RAM, mapper 0, no SRAM, horizontal
mirroring (DESIGN CHOICE, log 5: the spec gives no image; this is the shape of its §8 scenario). -/
def Cartridge.blank : Cartridge :=
  { prgPages := 1, chrPages := 0, mirrorV := false, fourScreen := false, hasSram := false, prg := [], chr := [] }

/-- The parameters of `State.reset` (DESIGN CHOICE, log 7). -/
def resetParams : Params :=
  { penalties := .nmos, maskedIrq := .retain, dmaStall := 513, cpuClockHz := 1789773, sampleRate := 44100 }

/-- The machine right after power-on and `reset()` (R75, R900-R902, R960 *fresh*) with the blank
cartridge: S = 0xFF, I = 1, nothing pending, `remaining` and `clock` 0, `diag` empty, PC the word at
0xFFFC, which the blank cartridge gives as 0x0000. Draws of R75 take the values of log 1 to log 4. -/
def State.reset : State :=
  { a := 0, x := 0, y := 0, sp := 0xFF, pc := 0x0000
    flags := { c := false, z := false, i := true, d := false, b := false, v := false, n := false }
    pending := none, remaining := 0, clock := 0, cost := 0, diag := [], ram := [], sram := []
    ppu := Ppu.reset, apu := Apu.reset, pads := Pads.reset, frame := Frame.reset
    mapper := { regs := .fixedBank, win := { prg0 := 0, prg1 := 0, chr0 := 0, chr1 := 4096 } }
    cart := Cartridge.blank, params := resetParams, draws := 0 }

end Sys2Proof.Machine
end

