-- ==== Sys2Proof/Machine/Memory.lean ====
section
/-!
DEFINITION. The operations on one store of bytes: reading and writing an index, writing a run of
indices, and the canonical form that every write keeps.
-/

namespace Sys2Proof.Machine

/-- The byte at an index: the listed one, else what an unlisted index reads as. -/
def Memory.read : Memory → Nat → Byte
  | [], _ => Memory.unlisted
  | c :: m, a => if c.1 = a then c.2 else Memory.read m a

/-- The store without any entry at `a`. -/
def Memory.erase (m : Memory) (a : Nat) : Memory := m.filter (fun c => c.1 ≠ a)

/-- Put an entry before the first larger index. -/
def Memory.insert : Memory → Nat → Byte → Memory
  | [], a, v => [(a, v)]
  | c :: m, a, v => if a < c.1 then (a, v) :: c :: m else c :: Memory.insert m a v

/-- Write one byte. Writing the value an unlisted index reads as removes the entry. -/
def Memory.write (m : Memory) (a : Nat) (v : Byte) : Memory :=
  if v = Memory.unlisted then m.erase a else (m.erase a).insert a v

/-- The listed entries of a run of bytes that starts at index `base`. -/
def Memory.cellsFrom : Nat → List Byte → Memory
  | _, [] => []
  | base, v :: vs =>
    if v = Memory.unlisted then Memory.cellsFrom (base + 1) vs
    else (base, v) :: Memory.cellsFrom (base + 1) vs

/-- Write the bytes `vs` at `base`, `base + 1`, … -/
def Memory.writeRun (m : Memory) (base : Nat) (vs : List Byte) : Memory :=
  m.filter (fun c => c.1 < base) ++ Memory.cellsFrom base vs ++ m.filter (fun c => base + vs.length ≤ c.1)

/-- The canonical form: indices strictly rising, no entry equal to what an unlisted index reads as. -/
abbrev Memory.wf (m : Memory) : Prop :=
  m.Pairwise (fun c d => c.1 < d.1) ∧ ∀ c ∈ m, c.2 ≠ Memory.unlisted

/-- Every listed index is below `size`. -/
abbrev Memory.within (size : Nat) (m : Memory) : Prop := ∀ c ∈ m, c.1 < size

end Sys2Proof.Machine
end

