-- ==== Sys2Proof/Machine/Apu.lean ====
section
/-!
DEFINITION. The APU's channels (81_apu.md): the fixed tables, the register effects of an applied write,
the $4015 read, the frame-sequencer clocks, the channel timers and outputs. What needs the bus or
the pending slot (the DMC's fetch and IRQ, synthesis) is in Sound.lean.
-/

namespace Sys2Proof.Machine

/-! ### Tables (R1105) -/

/-- LENGTH. -/
def lengthTable : List Nat :=
  [10, 254, 20, 2, 40, 4, 80, 6, 160, 8, 60, 10, 14, 12, 26, 14] ++
  [12, 16, 24, 18, 48, 20, 96, 22, 192, 24, 72, 26, 16, 28, 32, 30]

/-- DUTY: four patterns of eight steps. -/
def dutyTable : List (List Nat) :=
  [[0, 1, 0, 0, 0, 0, 0, 0], [0, 1, 1, 0, 0, 0, 0, 0], [0, 1, 1, 1, 1, 0, 0, 0], [1, 0, 0, 1, 1, 1, 1, 1]]

/-- TRI. -/
def triangleTable : List Nat :=
  [15, 14, 13, 12, 11, 10, 9, 8, 7, 6, 5, 4, 3, 2, 1, 0] ++
  [0, 1, 2, 3, 4, 5, 6, 7, 8, 9, 10, 11, 12, 13, 14, 15]

/-- NOISE, in CPU cycles. -/
def noiseTable : List Nat :=
  [4, 8, 16, 32, 64, 96, 128, 160, 202, 254, 380, 508, 762, 1016, 2034, 4068]

/-- DMC_RATE, in CPU cycles. -/
def dmcTable : List Nat :=
  [428, 380, 340, 320, 286, 254, 226, 214, 190, 160, 142, 128, 106, 84, 72, 54]

/-- `LENGTH[d >> 3]` (R1106). -/
def lengthOf (d : Byte) : Byte := BitVec.ofNat 8 (lengthTable.getD (d.toNat / 8) 0)

/-! ### Length counters (R1106) and envelopes (R1111) -/

/-- The length counter after a write of a channel's fourth register: loaded only while enabled. -/
def lengthLoad (enabled : Bool) (old d : Byte) : Byte := if enabled then lengthOf d else old

/-- A half-frame clock of a length counter. -/
def lengthClock (halt : Bool) (l : Byte) : Byte := if halt || l == 0 then l else l - 1

/-- A quarter-frame clock of an envelope unit with period `vol`. -/
def Envelope.clock (vol : BitVec 4) (loop : Bool) (e : Envelope) : Envelope :=
  if e.start then { start := false, divider := vol, decay := 15 }
  else if e.divider = 0 then
    { e with
      divider := vol
      decay := if e.decay ≠ 0 then e.decay - 1 else if loop then 15 else 0 }
  else { e with divider := e.divider - 1 }

/-- The envelope's output: V when constant, else the decay level. -/
def envelopeOut (constant : Bool) (vol : BitVec 4) (e : Envelope) : Nat :=
  if constant then vol.toNat else e.decay.toNat

/-! ### Pulse channels (R1110-R1113) -/

/-- Bits 10:8 of a timer period from bits 2:0 of a channel's fourth register. -/
def periodHigh (p : BitVec 11) (d : Byte) : BitVec 11 := (p &&& 0x0FF#11) ||| ((d &&& 0x07).setWidth 11 <<< 8)

/-- Bits 7:0 of a timer period. -/
def periodLow (p : BitVec 11) (d : Byte) : BitVec 11 := (p &&& 0x700#11) ||| d.setWidth 11

/-- An applied write of pulse register `k` (0-3) (R1110, R1112, R1113). -/
def Pulse.write (k : Nat) (d : Byte) (p : Pulse) : Pulse :=
  if k = 0 then
    { p with
      duty := d.extractLsb' 6 2, halt := d.getLsbD 5, constant := d.getLsbD 4, volume := d.extractLsb' 0 4 }
  else if k = 1 then
    { p with
      swEnable := d.getLsbD 7, swPeriod := d.extractLsb' 4 3, swNegate := d.getLsbD 3
      swShift := d.extractLsb' 0 3, swReload := true }
  else if k = 2 then { p with period := periodLow p.period d }
  else
    { p with
      period := periodHigh p.period d, length := lengthLoad p.enabled p.length d
      env := { p.env with start := true }, step := 0 }

/-- The sweep's target period: two's-complement negate for both channels (R1112, C7). -/
def Pulse.target (p : Pulse) : Nat :=
  let change := p.period.toNat >>> p.swShift.toNat
  if p.swNegate then p.period.toNat - change else p.period.toNat + change

/-- Muted by the sweep unit: the period below 8 or the target above 0x7FF (R1112). -/
def Pulse.muted (p : Pulse) : Bool := p.period.toNat < 8 || 0x7FF < p.target

/-- A half-frame clock of the sweep unit (R1112). -/
def Pulse.sweepClock (p : Pulse) : Pulse :=
  let moves := p.swDivider == 0 && p.swEnable && p.swShift != 0 && !p.muted
  { p with
    period := if moves then BitVec.ofNat 11 p.target else p.period
    swDivider := if p.swDivider == 0 || p.swReload then p.swPeriod else p.swDivider - 1
    swReload := if p.swDivider == 0 || p.swReload then false else p.swReload }

/-- One clock of the pulse timer (R1113). -/
def Pulse.tick (p : Pulse) : Pulse :=
  if p.timer = 0 then { p with timer := p.period, step := p.step + 1 } else { p with timer := p.timer - 1 }

/-- The pulse output (R1113). -/
def Pulse.out (p : Pulse) : Nat :=
  if p.length == 0 || p.muted || (dutyTable.getD p.duty.toNat []).getD p.step.toNat 0 == 0 then 0
  else envelopeOut p.constant p.volume p.env

/-! ### Triangle channel (R1130-R1132) -/

/-- An applied write of triangle register `k` (0-3); $4009 has no effect (R1130, R1132). -/
def Triangle.write (k : Nat) (d : Byte) (t : Triangle) : Triangle :=
  if k = 0 then { t with control := d.getLsbD 7, linearReload := d.extractLsb' 0 7 }
  else if k = 1 then t
  else if k = 2 then { t with period := periodLow t.period d }
  else
    { t with
      period := periodHigh t.period d, length := lengthLoad t.enabled t.length d, reloadFlag := true }

/-- A quarter-frame clock of the linear counter (R1131). -/
def Triangle.linearClock (t : Triangle) : Triangle :=
  let linear := if t.reloadFlag then t.linearReload else if t.linear ≠ 0 then t.linear - 1 else 0
  { t with linear := linear, reloadFlag := if !t.control && linear != 0 then false else t.reloadFlag }

/-- One clock of the triangle timer (R1132). -/
def Triangle.tick (t : Triangle) : Triangle :=
  if t.timer = 0 then
    { t with timer := t.period, step := if t.length != 0 && t.linear != 0 then t.step + 1 else t.step }
  else { t with timer := t.timer - 1 }

/-- The triangle output (R1132). -/
def Triangle.out (t : Triangle) : Nat := triangleTable.getD t.step.toNat 0

/-! ### Noise channel (R1140, R1141) -/

/-- An applied write of noise register `k` (0-3); $400D has no effect. -/
def Noise.write (k : Nat) (d : Byte) (n : Noise) : Noise :=
  if k = 0 then { n with halt := d.getLsbD 5, constant := d.getLsbD 4, volume := d.extractLsb' 0 4 }
  else if k = 1 then n
  else if k = 2 then { n with mode := d.getLsbD 7, periodIdx := d.extractLsb' 0 4 }
  else { n with length := lengthLoad n.enabled n.length d, env := { n.env with start := true } }

/-- The LFSR step (R1141, D51). -/
def lfsrStep (mode : Bool) (l : BitVec 15) : BitVec 15 :=
  let fb := l.getLsbD 0 ^^ (if mode then l.getLsbD 6 else l.getLsbD 1)
  (l >>> 1) ||| (if fb then 1#15 <<< 14 else 0)

/-- One clock of the noise timer: when it reaches 0 it reloads and the LFSR steps (R1141; log 17). A timer that
holds 0 already, as it can from power-on only, reloads and steps on its first clock (DESIGN CHOICE, log 17). -/
def Noise.tick (n : Noise) : Noise :=
  if n.timer.toNat ≤ 1 then
    { n with timer := BitVec.ofNat 12 (noiseTable.getD n.periodIdx.toNat 0), lfsr := lfsrStep n.mode n.lfsr }
  else { n with timer := n.timer - 1 }

/-- The noise output (R1141). -/
def Noise.out (n : Noise) : Nat :=
  if n.length == 0 || n.lfsr.getLsbD 0 then 0 else envelopeOut n.constant n.volume n.env

/-! ### DMC registers (R1150, R1160) -/

/-- An applied write of DMC register `k` (0-3) (R1150). -/
def Dmc.write (k : Nat) (d : Byte) (c : Dmc) : Dmc :=
  if k = 0 then
    { c with
      irqEnable := d.getLsbD 7, loop := d.getLsbD 6, rateIdx := d.extractLsb' 0 4
      irq := if d.getLsbD 7 then c.irq else false }
  else if k = 1 then { c with counter := d.extractLsb' 1 6, lsb := d.getLsbD 0 }
  else if k = 2 then { c with addrLatch := 0xC000 + (d.setWidth 16 <<< 6) }
  else { c with lenLatch := (d.setWidth 12 <<< 4) + 1 }

/-- The DMC output, `counter * 2 + lsb` (R1160). -/
def Dmc.out (c : Dmc) : Nat := c.counter.toNat * 2 + c.lsb.toNat

/-- One output bit moves the delta counter, which saturates at 0 and 63 (R1151, R1160). -/
def Dmc.shiftBit (c : Dmc) : Dmc :=
  if c.bitsLeft = 0 then c
  else
    { c with
      counter :=
        if c.shift.getLsbD 0 then (if c.counter = 63 then 63 else c.counter + 1)
        else (if c.counter = 0 then 0 else c.counter - 1)
      shift := c.shift >>> 1
      bitsLeft := c.bitsLeft - 1 }

/-! ### $4015 and the applied writes (R1102, R1170, R1180) -/

/-- A channel's length counter after bit `en` of a $4015 write: a disabled channel's is 0 (R1170). -/
def enableLength (en : Bool) (l : Byte) : Byte := if en then l else 0

/-- An applied write of $4015 for the DMC: disable, or restart when no byte is left; the IRQ flag is
cleared (R1170). -/
def Dmc.enable (en : Bool) (c : Dmc) : Dmc :=
  let c := { c with irq := false }
  if !en then { c with bytesLeft := 0 }
  else if c.bytesLeft = 0 then { c with addr := c.addrLatch, bytesLeft := c.lenLatch }
  else c

/-- An applied write of $4015 (R1170). -/
def Apu.statusWrite (d : Byte) (u : Apu) : Apu :=
  { u with
    pulse1 := { u.pulse1 with enabled := d.getLsbD 0, length := enableLength (d.getLsbD 0) u.pulse1.length }
    pulse2 := { u.pulse2 with enabled := d.getLsbD 1, length := enableLength (d.getLsbD 1) u.pulse2.length }
    triangle :=
      { u.triangle with enabled := d.getLsbD 2, length := enableLength (d.getLsbD 2) u.triangle.length }
    noise := { u.noise with enabled := d.getLsbD 3, length := enableLength (d.getLsbD 3) u.noise.length }
    dmc := u.dmc.enable (d.getLsbD 4) }

/-- `ApuStatus`, the $4015 read: the applied state, no side effect (R1170). -/
def Apu.status (u : Apu) : Byte :=
  let on (b : Bool) (k : Nat) : Byte := if b then 1#8 <<< k else 0
  on (u.pulse1.length != 0) 0 ||| on (u.pulse2.length != 0) 1 ||| on (u.triangle.length != 0) 2 |||
    on (u.noise.length != 0) 3 ||| on (u.dmc.bytesLeft != 0) 4 ||| on u.dmc.irq 7

/-- `Apply(a, d)` (R1103): the register effect of port `a`. -/
def Apu.apply (w : DeferredWrite) (u : Apu) : Apu :=
  let p := w.addr.toNat
  if p < 0x4000 then u
  else if p < 0x4004 then { u with pulse1 := u.pulse1.write (p - 0x4000) w.val }
  else if p < 0x4008 then { u with pulse2 := u.pulse2.write (p - 0x4004) w.val }
  else if p < 0x400C then { u with triangle := u.triangle.write (p - 0x4008) w.val }
  else if p < 0x4010 then { u with noise := u.noise.write (p - 0x400C) w.val }
  else if p < 0x4014 then { u with dmc := u.dmc.write (p - 0x4010) w.val }
  else if p = 0x4015 then u.statusWrite w.val
  else if p = 0x4017 then { u with frameLatch := w.val }
  else u

/-! ### Frame-sequencer clocks (R1104) -/

/-- A quarter-frame clock: the envelopes and the linear counter (R1104). -/
def Apu.quarterFrame (u : Apu) : Apu :=
  { u with
    pulse1 := { u.pulse1 with env := u.pulse1.env.clock u.pulse1.volume u.pulse1.halt }
    pulse2 := { u.pulse2 with env := u.pulse2.env.clock u.pulse2.volume u.pulse2.halt }
    noise := { u.noise with env := u.noise.env.clock u.noise.volume u.noise.halt }
    triangle := u.triangle.linearClock }

/-- A half-frame clock: the length counters and the sweeps (R1104, R1106, R1112). -/
def Apu.halfFrame (u : Apu) : Apu :=
  let pulse (p : Pulse) : Pulse := { p.sweepClock with length := lengthClock p.halt p.length }
  { u with
    pulse1 := pulse u.pulse1
    pulse2 := pulse u.pulse2
    triangle := { u.triangle with length := lengthClock u.triangle.control u.triangle.length }
    noise := { u.noise with length := lengthClock u.noise.halt u.noise.length } }

/-- One quarter-frame clock of the sequencer; every second one is also a half-frame clock (R1104, D53; log 16). -/
def Apu.sequencerClock (u : Apu) : Apu :=
  let q := u.quarterFrame
  if u.half then { q.halfFrame with half := false } else { q with half := true }

/-- `n` sequencer clocks. -/
def Apu.sequencerClocks : Nat → Apu → Apu
  | 0, u => u
  | n + 1, u => Apu.sequencerClocks n u.sequencerClock

/-- The frame sequencer's share of `Advance` over one sample (R1104; log 18): the accumulator grows by
240 times the span, and each CPU_CLOCK_HZ it holds is one clock. -/
def Apu.sequencerAdvance (p : Params) (u : Apu) : Apu :=
  let acc := u.facc + 240 * p.cpuClockHz
  let unit := p.cpuClockHz * p.sampleRate
  { u.sequencerClocks (acc / unit) with facc := acc % unit }

/-- CPU cycle `c` of the pulse, triangle and noise timers: the pulse timers every second cycle (R1104; log 15). -/
def Apu.timers (c : Nat) (u : Apu) : Apu :=
  let even := (c + Config.pulsePhase) % 2 == 0
  { u with
    pulse1 := if even then u.pulse1.tick else u.pulse1
    pulse2 := if even then u.pulse2.tick else u.pulse2
    triangle := u.triangle.tick
    noise := u.noise.tick }

/-- The mixed sample (R1103). -/
def Apu.mixed (u : Apu) : Int := Config.mix u.pulse1.out u.pulse2.out u.triangle.out u.noise.out u.dmc.out

/-- Take from the front of the queue and apply, in order, every write whose timestamp is reached at the
time `tk`, in units of 1/`rate` cycle (R1103). -/
def Apu.applyDue (rate tk : Nat) : List DeferredWrite → Apu → Apu
  | [], u => { u with queue := [] }
  | w :: q, u => if w.ts * rate ≤ tk then Apu.applyDue rate tk q (u.apply w) else { u with queue := w :: q }

end Sys2Proof.Machine
end

