-- ==== Sys2Proof/Machine/Draw.lean ====
section
/-!
DEFINITION. Free values ("draws", 00_scope.md R12; log 6): each draw takes the next value of
`Config.freeByte`, which has no body, so that what a proof says of a draw holds for every value.
-/

namespace Sys2Proof.Machine

/-- One free byte. -/
def drawByte (s : State) : Byte × State := (Config.freeByte s.draws, { s with draws := s.draws + 1 })

end Sys2Proof.Machine
end

