-- ==== Sys2Proof/Machine/Mapper.lean ====
section
/-!
DEFINITION. The cartridge mapper (83_mapper.md R1300-R1340): the window table and its derivation, PRG
and CHR access, the four variants' register writes, and nametable mirroring (80_ppu.md R1013), which
the shift-register variant changes.
-/

namespace Sys2Proof.Machine

/-! ### Mirroring (R1013, R1331) -/

/-- The mirroring modes (R1013). -/
inductive Mirroring where
  | horizontal
  | vertical
  | fourScreen
  | singleScreen0
  deriving DecidableEq, Repr

/-- The logical-to-physical table of a mode (R1013). -/
def ntmapOf : Mirroring → NtMap
  | .horizontal => { n0 := 0, n1 := 0, n2 := 1, n3 := 1 }
  | .vertical => { n0 := 0, n1 := 1, n2 := 0, n3 := 1 }
  | .fourScreen => { n0 := 0, n1 := 1, n2 := 2, n3 := 3 }
  | .singleScreen0 => { n0 := 0, n1 := 0, n2 := 0, n3 := 0 }

/-- `changeMirroring(mode)`: sets `ntmap` and copies no byte (R1013). -/
def changeMirroring (m : Mirroring) (s : State) : State :=
  { s with ppu := { s.ppu with ntmap := ntmapOf m } }

/-- The mode of the header's mirroring flags (R1331). -/
def headerMirroring (c : Cartridge) : Mirroring :=
  if c.fourScreen then .fourScreen else if c.mirrorV then .vertical else .horizontal

/-- `Mmc1Mode` (R1326). -/
def mmc1Mode (m : Nat) : Mirroring :=
  if m = 2 then .vertical else if m = 3 then .horizontal else .singleScreen0

/-! ### Windows (R1300, R1302) -/

/-- PRG bytes in the image (R1330). -/
def prgSize (c : Cartridge) : Nat := 16384 * c.prgPages

/-- CHR bytes: the image's, or 8 KB of CHR RAM (R1330). -/
def chrSize (c : Cartridge) : Nat := if c.chrPages = 0 then 8192 else 8192 * c.chrPages

/-- Number of 8 KB CHR banks (R1302). -/
def nChr8 (c : Cartridge) : Nat := chrSize c / 8192

/-- Number of 4 KB CHR banks (R1302). -/
def nChr4 (c : Cartridge) : Nat := chrSize c / 4096

/-- PRG windows of the shift-register variant (R1327). -/
def mmc1Prg (c : Cartridge) (r : Mmc1) : Nat × Nat :=
  let pm := (r.control.toNat / 4) % 4
  let p := r.prg.toNat % c.prgPages
  if pm = 2 then (0, 16384 * p)
  else if pm = 3 then (16384 * p, 16384 * (c.prgPages - 1))
  else (16384 * ((r.prg &&& 0x0E).toNat % c.prgPages), 16384 * ((r.prg ||| 1).toNat % c.prgPages))

/-- CHR windows of the shift-register variant (R1328). -/
def mmc1Chr (c : Cartridge) (r : Mmc1) : Nat × Nat :=
  if r.control.getLsbD 4 then
    (4096 * (r.chr0.toNat % nChr4 c), 4096 * (r.chr1.toNat % nChr4 c))
  else
    let even := (r.chr0 &&& 0x1E).toNat
    (4096 * (even % nChr4 c), 4096 * ((even + 1) % nChr4 c))

/-- `Recompute()`: the window table of a variant's registers (R1302, R1310, R1315, R1320, R1327, R1328). -/
def recompute (c : Cartridge) : MapperRegs → Windows
  | .fixedBank => { prg0 := 0, prg1 := 16384 % prgSize c, chr0 := 0, chr1 := 4096 }
  | .chrBankSelect b => { prg0 := 0, prg1 := 16384 % prgSize c, chr0 := 8192 * b, chr1 := 8192 * b + 4096 }
  | .prgBankSelect b => { prg0 := 16384 * b, prg1 := 16384 * (c.prgPages - 1), chr0 := 0, chr1 := 4096 }
  | .shiftReg r =>
    { prg0 := (mmc1Prg c r).1, prg1 := (mmc1Prg c r).2, chr0 := (mmc1Chr c r).1, chr1 := (mmc1Chr c r).2 }

/-- Set the bank registers and recompute the windows. -/
def setMapper (r : MapperRegs) (s : State) : State :=
  { s with mapper := { regs := r, win := recompute s.cart r } }

/-! ### PRG and CHR access (R1301, R1303) -/

/-- The PRG offset a CPU address from 0x8000 up shows (R1301). -/
def prgOffset (a : Addr) (s : State) : Nat :=
  ((if a.getLsbD 14 then s.mapper.win.prg1 else s.mapper.win.prg0) + a.toNat % 0x4000) % prgSize s.cart

/-- `Mapper.read` (R1301). -/
def prgRead (a : Addr) (s : State) : Byte := s.cart.prg.read (prgOffset a s)

/-- The CHR offset a PPU address below 0x2000 shows (R1303). -/
def chrOffset (a : BitVec 14) (s : State) : Nat :=
  ((if a.getLsbD 12 then s.mapper.win.chr1 else s.mapper.win.chr0) + a.toNat % 0x1000) % chrSize s.cart

/-- `Mapper.readChr` (R1303). -/
def chrRead (a : BitVec 14) (s : State) : Byte := s.cart.chr.read (chrOffset a s)

/-- `Mapper.writeChr`: stored only into CHR RAM (R1303, D64). -/
def chrWrite (a : BitVec 14) (v : Byte) (s : State) : State :=
  if s.cart.chrPages = 0 then
    { s with cart := { s.cart with chr := s.cart.chr.write (chrOffset a s) v } }
  else s

/-! ### Register writes (R1304-R1326) -/

/-- The fifth serial write: the register that address bits 14:13 select takes the shifted value (R1325). -/
def mmc1Dispatch (a : Addr) (value : BitVec 5) (r : Mmc1) (s : State) : State :=
  let r := { r with shift := 0, count := 0 }
  let sel := a.extractLsb' 13 2
  if sel = 0 then
    setMapper (.shiftReg { r with control := value }) (changeMirroring (mmc1Mode (value.toNat % 4)) s)
  else if sel = 1 then setMapper (.shiftReg { r with chr0 := value }) s
  else if sel = 2 then setMapper (.shiftReg { r with chr1 := value }) s
  else setMapper (.shiftReg { r with prg := value.extractLsb' 0 4 }) s

/-- `Mmc1Write` (R1325): bit 7 resets, else bit 0 is shifted in, least significant bit first. -/
def mmc1Write (a : Addr) (d : Byte) (r : Mmc1) (s : State) : State :=
  if d.getLsbD 7 then
    setMapper (.shiftReg { r with shift := 0, count := 0, control := r.control ||| 0x0C }) s
  else
    let value := r.shift ||| ((d &&& 1).setWidth 5 <<< r.count)
    if r.count + 1 = 5 then mmc1Dispatch a value r s
    else { s with mapper := { s.mapper with regs := .shiftReg { r with shift := value, count := r.count + 1 } } }

/-- `Mapper.write` (R1304): no variant reacts below 0x8000 (D26). -/
def mapperWrite (a : Addr) (d : Byte) (s : State) : State :=
  if a.toNat < 0x8000 then s
  else match s.mapper.regs with
    | .fixedBank => s
    | .chrBankSelect _ => setMapper (.chrBankSelect (d.toNat % nChr8 s.cart)) s
    | .prgBankSelect _ => setMapper (.prgBankSelect (d.toNat % s.cart.prgPages)) s
    | .shiftReg r => mmc1Write a d r s

end Sys2Proof.Machine
end

