-- ==== Sys2Proof/Machine/Ppu.lean ====
section
/-!
DEFINITION. The PPU's address space and ports (80_ppu.md R1010-R1026), and the scroll register steps
the frame driver directs (R1033-R1035). Rasterizing is in Render.lean.
-/

namespace Sys2Proof.Machine

/-! ### PPU address space (R1010, R1011) -/

/-- `PalIndex` (R1011): the 32 bytes repeat, and sprite entries 0, 4, 8, 12 are the background's. -/
def palIndex (a : BitVec 14) : Nat :=
  let i := a.toNat % 32
  if i = 0x10 ∨ i = 0x14 ∨ i = 0x18 ∨ i = 0x1C then i - 0x10 else i

/-- The physical buffer of logical nametable `n` (R1012). -/
def NtMap.get (m : NtMap) (n : Nat) : Fin 4 :=
  if n = 0 then m.n0 else if n = 1 then m.n1 else if n = 2 then m.n2 else m.n3

/-- The nametable index of a PPU address: bits 11:10 the logical table, bits 9:0 the byte (R1010). -/
def ntIndex (a : BitVec 14) (m : NtMap) : Nat :=
  1024 * (m.get (a.toNat / 1024 % 4)).val + a.toNat % 1024

/-- `PpuRead` (R1010). -/
def ppuRead (a : BitVec 14) (s : State) : Byte :=
  if a.toNat < 0x2000 then chrRead a s
  else if a.toNat < 0x3F00 then s.ppu.nt.read (ntIndex a s.ppu.ntmap)
  else s.ppu.pal.read (palIndex a)

/-- `PpuWrite` (R1010). -/
def ppuWrite (a : BitVec 14) (v : Byte) (s : State) : State :=
  if a.toNat < 0x2000 then chrWrite a v s
  else if a.toNat < 0x3F00 then
    { s with ppu := { s.ppu with nt := s.ppu.nt.write (ntIndex a s.ppu.ntmap) v } }
  else { s with ppu := { s.ppu with pal := s.ppu.pal.write (palIndex a) v } }

/-- The step `$2007` adds to v: 32 if PPUCTRL bit 2 is 1, else 1 (R1020, R1023). -/
def vramStep (p : Ppu) : BitVec 15 := if p.ctrl.getLsbD 2 then 32 else 1

/-- "Rendering enabled": PPUMASK bit 3 or bit 4 (R1021). -/
def renderingEnabled (p : Ppu) : Bool := p.mask.getLsbD 3 || p.mask.getLsbD 4

/-- A Bool as bit `k` of a byte. -/
def bitAt (b : Bool) (k : Nat) : Byte := if b then 1#8 <<< k else 0

/-! ### Port reads (R1023) -/

/-- A read of $2002: vblank, sprite0hit, sprOverflow and five drawn bits; clears vblank and w (R1022, R1023). -/
def statusRead (s : State) : Byte × State :=
  let (r, s) := drawByte s
  (bitAt s.ppu.vblank 7 ||| bitAt s.ppu.sprite0hit 6 ||| bitAt s.ppu.sprOverflow 5 ||| (r &&& 0x1F),
    { s with ppu := { s.ppu with vblank := false, w := false } })

/-- A read of $2007: buffered below 0x3F00, direct from the palette; v steps (R1023, D31, D32). -/
def dataRead (s : State) : Byte × State :=
  let a := s.ppu.v.setWidth 14
  let r := if 0x3F00 ≤ a.toNat then ppuRead a s else s.ppu.rdbuf
  let buf := if 0x3F00 ≤ a.toNat then ppuRead (a &&& 0x2FFF) s else ppuRead a s
  (r, { s with ppu := { s.ppu with rdbuf := buf, v := s.ppu.v + vramStep s.ppu } })

/-- `PpuPortRead` of port 0x2000 + `p` (R1023). The write-only ports read as draws (D24). -/
def ppuPortRead (p : Nat) (s : State) : Byte × State :=
  if p = 2 then statusRead s
  else if p = 4 then (s.ppu.oam.read s.ppu.oamaddr.toNat, s)
  else if p = 7 then dataRead s
  else drawByte s

/-! ### Port writes (R1024) -/

/-- A write of $2000: PPUCTRL, and its bits 1:0 into t bits 11:10. -/
def ctrlWrite (d : Byte) (p : Ppu) : Ppu :=
  { p with ctrl := d, t := (p.t &&& ~~~0x0C00#15) ||| ((d &&& 0x03).setWidth 15 <<< 10) }

/-- A write of $2005: coarse and fine X first, then fine and coarse Y. -/
def scrollWrite (d : Byte) (p : Ppu) : Ppu :=
  if p.w then
    { p with
      t := (p.t &&& ~~~0x73E0#15) ||| ((d &&& 0x07).setWidth 15 <<< 12) ||| ((d >>> 3).setWidth 15 <<< 5)
      w := false }
  else
    { p with t := (p.t &&& ~~~0x001F#15) ||| (d >>> 3).setWidth 15, x := d.setWidth 3, w := true }

/-- A write of $2006: the high six bits first (bit 14 cleared), then the low byte, which also loads v. -/
def addrWrite (d : Byte) (p : Ppu) : Ppu :=
  if p.w then
    let t := (p.t &&& 0x7F00#15) ||| d.setWidth 15
    { p with t := t, v := t, w := false }
  else
    { p with t := (p.t &&& 0x00FF#15) ||| ((d &&& 0x3F).setWidth 15 <<< 8), w := true }

/-- A write of $2004: stored at OAMADDR, which steps modulo 256 (R1026). -/
def oamDataWrite (d : Byte) (p : Ppu) : Ppu :=
  { p with oam := p.oam.write p.oamaddr.toNat d, oamaddr := p.oamaddr + 1 }

/-- A write of $2007: `PpuWrite` at v, then v steps (R1024). -/
def dataWrite (d : Byte) (s : State) : State :=
  let s := ppuWrite (s.ppu.v.setWidth 14) d s
  { s with ppu := { s.ppu with v := s.ppu.v + vramStep s.ppu } }

/-- `PpuPortWrite` of port 0x2000 + `p` (R1024). A write of $2002 has no effect (D24). -/
def ppuPortWrite (p : Nat) (d : Byte) (s : State) : State :=
  if p = 0 then { s with ppu := ctrlWrite d s.ppu }
  else if p = 1 then { s with ppu := { s.ppu with mask := d } }
  else if p = 2 then s
  else if p = 3 then { s with ppu := { s.ppu with oamaddr := d } }
  else if p = 4 then { s with ppu := oamDataWrite d s.ppu }
  else if p = 5 then { s with ppu := scrollWrite d s.ppu }
  else if p = 6 then { s with ppu := addrWrite d s.ppu }
  else dataWrite d s

/-! ### Scroll steps (R1033-R1035) -/

/-- `IncCoarseX` (R1033). -/
def incCoarseX (v : BitVec 15) : BitVec 15 :=
  if v &&& 0x001F#15 = 31 then (v &&& ~~~0x001F#15) ^^^ 0x0400 else v + 1

/-- `IncY` (R1034). -/
def incY (v : BitVec 15) : BitVec 15 :=
  if v &&& 0x7000#15 ≠ 0x7000 then v + 0x1000
  else
    let v := v &&& ~~~0x7000#15
    let cy := (v >>> 5) &&& 0x1F#15
    if cy = 29 then (v ^^^ 0x0800) &&& ~~~0x03E0#15
    else if cy = 31 then v &&& ~~~0x03E0#15
    else (v &&& ~~~0x03E0#15) ||| ((cy + 1) <<< 5)

/-- `CopyX` (R1035): coarse X and the horizontal nametable bit. -/
def copyX (p : Ppu) : Ppu := { p with v := (p.v &&& ~~~0x041F#15) ||| (p.t &&& 0x041F#15) }

/-- `CopyAll` (R1035). -/
def copyAll (p : Ppu) : Ppu := { p with v := p.t }

end Sys2Proof.Machine
end

