-- ==== Sys2Proof/Machine/Bus.lean ====
section
/-!
DEFINITION. The shared memory bus (20_memory.md R100-R113) and the register/IO decoder behind it
(82_io_decoder_and_frame.md R1200-R1211): one byte read, one byte write, for every address, with the side
effects of the ports. There is no error path (R112).
-/

namespace Sys2Proof.Machine

/-- Add `n` cycles to the cost of the current iteration: `Charge(n)` (R905). -/
def State.charge (n : Nat) (s : State) : State := { s with cost := s.cost + n }

/-! ### Joypads (R1210, R1211) -/

/-- The byte of a joypad read: bit 0 the button (a draw past the eighth), bits 7:1 drawn (R1210, D46). -/
def padByte (snap : Vector Bool 8) (idx : Nat) (r : Byte) : Byte :=
  if idx < 8 then (r &&& 0xFE) ||| (if snap.toList.getD idx false then 1 else 0) else r

/-- The read index after a joypad read (R1210). -/
def padNext (strobe : Bool) (idx : Nat) : Nat := if strobe then 0 else if idx < 8 then idx + 1 else idx

/-- `PadRead(0)` (R1210). -/
def padRead0 (s : State) : Byte × State :=
  let (r, s) := drawByte s
  let idx := if s.pads.strobe then 0 else s.pads.idx0
  (padByte s.pads.snap0 idx r, { s with pads := { s.pads with idx0 := padNext s.pads.strobe idx } })

/-- `PadRead(1)` (R1210). -/
def padRead1 (s : State) : Byte × State :=
  let (r, s) := drawByte s
  let idx := if s.pads.strobe then 0 else s.pads.idx1
  (padByte s.pads.snap1 idx r, { s with pads := { s.pads with idx1 := padNext s.pads.strobe idx } })

/-- `PadStrobe` (R1211): both indices are 0 while the strobe is 1. -/
def padStrobe (d : Byte) (p : Pads) : Pads :=
  if d.getLsbD 0 then { p with strobe := true, idx0 := 0, idx1 := 0 } else { p with strobe := false }

/-! ### Reads -/

/-- `IoRead`, for 0x4000-0x401F (R1201). -/
def ioRead (a : Addr) (s : State) : Byte × State :=
  if a.toNat = 0x4015 then (s.apu.status, s)
  else if a.toNat = 0x4016 then padRead0 s
  else if a.toNat = 0x4017 then padRead1 s
  else drawByte s

/-- The RAM index of an address below 0x2000: `a & 0x07FF` (R105). -/
def ramIndex (a : Addr) : Nat := a.toNat % 0x800

/-- `BusRead`, `MemRead(a, 1)` (R110). -/
def busRead (a : Addr) (s : State) : Byte × State :=
  if a.toNat < 0x2000 then (s.ram.read (ramIndex a), s)
  else if a.toNat < 0x4000 then ppuPortRead (a.toNat % 8) s
  else if a.toNat < 0x4020 then ioRead a s
  else if a.toNat < 0x6000 then (0x00, s)
  else if a.toNat < 0x8000 then
    if s.cart.hasSram then (s.sram.read (a.toNat - 0x6000), s) else drawByte s
  else (prgRead a s, s)

/-- The byte a read of `a` gives where a read has no effect and its value is not a draw (R103): RAM, the
expansion range, present SRAM, PRG. `none` for the ports and for absent SRAM. -/
def peek (a : Addr) (s : State) : Option Byte :=
  if a.toNat < 0x2000 then some (s.ram.read (ramIndex a))
  else if a.toNat < 0x4020 then none
  else if a.toNat < 0x6000 then some 0x00
  else if a.toNat < 0x8000 then if s.cart.hasSram then some (s.sram.read (a.toNat - 0x6000)) else none
  else some (prgRead a s)

/-- `Read16` (R9): the low byte, then the high byte at the next address modulo 0x10000. -/
def read16 (a : Addr) (s : State) : Addr × State :=
  let (lo, s) := busRead a s
  let (hi, s) := busRead (a + 1) s
  (word16 hi lo, s)

/-! ### Writes -/

/-- Byte `i` of an OAM DMA from page `d`: a bus read, stored at OAMADDR + i modulo 256 (R1203). -/
def oamDmaByte (d : Byte) (s : State) (i : Nat) : State :=
  let (b, s) := busRead (word16 d (BitVec.ofNat 8 i)) s
  { s with ppu := { s.ppu with oam := s.ppu.oam.write ((s.ppu.oamaddr.toNat + i) % 256) b } }

/-- `OamDma` (R1203): 256 bytes, then the stall. -/
def oamDma (d : Byte) (s : State) : State :=
  ((List.range 256).foldl (oamDmaByte d) s).charge s.params.dmaStall

/-- `Apu.write`: append to the deferred queue, stamped with the CPU-clock time of the write (R1101, R906). -/
def apuEnqueue (a : Addr) (d : Byte) (s : State) : State :=
  { s with apu := { s.apu with queue := s.apu.queue ++ [{ ts := s.clock + s.cost, addr := a, val := d }] } }

/-- `IoWrite`, for 0x4000-0x401F (R1202). -/
def ioWrite (a : Addr) (d : Byte) (s : State) : State :=
  if a.toNat ≤ 0x4013 ∨ a.toNat = 0x4015 ∨ a.toNat = 0x4017 then apuEnqueue a d s
  else if a.toNat = 0x4014 then oamDma d s
  else if a.toNat = 0x4016 then { s with pads := padStrobe d s.pads }
  else s

/-- `BusWrite`, `MemWrite(a, 1, v)` (R111). -/
def busWrite (a : Addr) (v : Byte) (s : State) : State :=
  if a.toNat < 0x2000 then { s with ram := s.ram.write (ramIndex a) v }
  else if a.toNat < 0x4000 then ppuPortWrite (a.toNat % 8) v s
  else if a.toNat < 0x4020 then ioWrite a v s
  else if a.toNat < 0x6000 then mapperWrite a v s
  else if a.toNat < 0x8000 then
    if s.cart.hasSram then { s with sram := s.sram.write (a.toNat - 0x6000) v } else s
  else mapperWrite a v s

end Sys2Proof.Machine
end

