-- ==== Sys2Proof/Machine/Flags.lean ====
section
/-!
DEFINITION. Every flag computation of the instruction set (00_scope.md R10; 41_arithmetic_logic.md
R401-R409; 42_shift_rotate.md R501-R504): the status byte, SetNZ, the adder, the comparison, BIT, the
shifts. Each takes and gives Flags, so the flags it does not name are unchanged (R300).
-/

namespace Sys2Proof.Machine

/-- `SetNZ(r)`: Z is r = 0, N is bit 7 of r (R10). -/
def setNZ (r : Byte) (f : Flags) : Flags := { f with z := r == 0, n := r.getLsbD 7 }

/-- A flag as bit `k` of the status byte. -/
def flagBit (b : Bool) (k : Nat) : Byte := if b then 1#8 <<< k else 0

/-- `PackP(b)`: N V 1 b D I Z C, bit 5 always 1 (R10, R54). -/
def packP (b : Bool) (f : Flags) : Byte :=
  flagBit f.n 7 ||| flagBit f.v 6 ||| 0x20 ||| flagBit b 4 ||| flagBit f.d 3 ||| flagBit f.i 2 |||
    flagBit f.z 1 ||| flagBit f.c 0

/-- `UnpackP(p)`: all seven flags from the byte, bit 5 ignored (R10). -/
def unpackP (p : Byte) : Flags :=
  { n := p.getLsbD 7, v := p.getLsbD 6, b := p.getLsbD 4, d := p.getLsbD 3, i := p.getLsbD 2
    z := p.getLsbD 1, c := p.getLsbD 0 }

/-- ADC's sum, unbounded, 0..511 (R401). -/
def adcSum (a m : Byte) (c : Bool) : Nat := a.toNat + m.toNat + c.toNat

/-- ADC: the result and the flags, binary whatever D holds (R401, D2). V is set when the operand's sign
equals the accumulator's and the result's differs. -/
def adc (a m : Byte) (f : Flags) : Byte × Flags :=
  let sum := adcSum a m f.c
  let r := BitVec.ofNat 8 sum
  (r, setNZ r { f with
    v := a.getLsbD 7 == m.getLsbD 7 && r.getLsbD 7 != a.getLsbD 7
    c := 0x100 ≤ sum })

/-- SBC: ADC of the complemented operand (R402, C4). -/
def sbc (a m : Byte) (f : Flags) : Byte × Flags := adc a (m ^^^ 0xFF) f

/-- CMP, CPX, CPY: C is r >= m unsigned, Z is r = m, N is bit 7 of the difference (R406). -/
def compare (r m : Byte) (f : Flags) : Flags :=
  { f with c := m.toNat ≤ r.toNat, z := r == m, n := (r - m).getLsbD 7 }

/-- BIT: Z from A and M, N and V from M (R409). -/
def bitTest (a m : Byte) (f : Flags) : Flags :=
  { f with z := a &&& m == 0, n := m.getLsbD 7, v := m.getLsbD 6 }

/-- INC (R410). -/
def incByte (v : Byte) (f : Flags) : Byte × Flags := (v + 1, setNZ (v + 1) f)

/-- DEC (R411). -/
def decByte (v : Byte) (f : Flags) : Byte × Flags := (v - 1, setNZ (v - 1) f)

/-- ASL: C is the old bit 7 (R501). -/
def aslByte (v : Byte) (f : Flags) : Byte × Flags :=
  let r := v <<< 1
  (r, setNZ r { f with c := v.getLsbD 7 })

/-- LSR: C is the old bit 0 (R502). -/
def lsrByte (v : Byte) (f : Flags) : Byte × Flags :=
  let r := v >>> 1
  (r, setNZ r { f with c := v.getLsbD 0 })

/-- ROL: the old C enters bit 0, the old bit 7 is C (R503). -/
def rolByte (v : Byte) (f : Flags) : Byte × Flags :=
  let r := (v <<< 1) ||| flagBit f.c 0
  (r, setNZ r { f with c := v.getLsbD 7 })

/-- ROR: the old C enters bit 7, the old bit 0 is C (R504). -/
def rorByte (v : Byte) (f : Flags) : Byte × Flags :=
  let r := flagBit f.c 7 ||| (v >>> 1)
  (r, setNZ r { f with c := v.getLsbD 0 })

end Sys2Proof.Machine
end

