-- ==== Sys2Proof/Machine/Ops.lean ====
section
/-!
DEFINITION. The operations instructions and the run loop are made of (00_scope.md R10): register
writes, fetching, the stack, the pending slot, the one interrupt entry that BRK, IRQ and NMI share
(60_exceptions.md R820), the return from it, the reset sequence (70_reset_and_hazards.md R900, R901)
and interrupt service (R815).
-/

namespace Sys2Proof.Machine

/-! ### Registers -/

/-- `A <- v`. -/
def State.setA (v : Byte) (s : State) : State := { s with a := v }

/-- `X <- v`. -/
def State.setX (v : Byte) (s : State) : State := { s with x := v }

/-- `Y <- v`. -/
def State.setY (v : Byte) (s : State) : State := { s with y := v }

/-- `S <- v`. -/
def State.setSp (v : Byte) (s : State) : State := { s with sp := v }

/-- `PC <- w`. -/
def State.setPc (w : Addr) (s : State) : State := { s with pc := w }

/-- All flags at once. -/
def State.setFlags (f : Flags) (s : State) : State := { s with flags := f }

/-- `pending <- p`. -/
def State.setPending (p : Option Interrupt) (s : State) : State := { s with pending := p }

/-! ### Fetching (R10, R200) -/

/-- `Fetch8()`: the byte at PC through the bus; PC + 1 modulo 0x10000. -/
def fetch8 (s : State) : Byte × State :=
  let (b, s) := busRead s.pc s
  (b, s.setPc (s.pc + 1))

/-- Fetch the opcode and as many operand bytes as it has, in address order, and decode (R200, R201;
log 13). PC then is the address after the instruction (R52). -/
def fetchInstr (s : State) : Instr × State :=
  let (op, s) := fetch8 s
  if opLength op = 1 then (decodeOp op 0 0, s)
  else
    let (lo, s) := fetch8 s
    if opLength op = 2 then (decodeOp op lo 0, s)
    else
      let (hi, s) := fetch8 s
      (decodeOp op lo hi, s)

/-! ### The stack (R10, R51) -/

/-- The CPU address of the stack byte S names (R51). -/
def stackAddr (sp : Byte) : Addr := word16 0x01 sp

/-- `Push8(v)`: write at 0x0100 + S, then S - 1 modulo 256. -/
def push8 (v : Byte) (s : State) : State :=
  (busWrite (stackAddr s.sp) v s).setSp (s.sp - 1)

/-- `Pull8()`: S + 1 modulo 256, then read. -/
def pull8 (s : State) : Byte × State :=
  let s := s.setSp (s.sp + 1)
  busRead (stackAddr s.sp) s

/-- Push a 16-bit value, high byte first (R100, R610, R820). -/
def push16 (w : Addr) (s : State) : State := push8 (loByte w) (push8 (hiByte w) s)

/-- Pull a 16-bit value, low byte first (R611, R713). -/
def pull16 (s : State) : Addr × State :=
  let (lo, s) := pull8 s
  let (hi, s) := pull8 s
  (word16 hi lo, s)

/-! ### Interrupts (R810, R815, R820, R821) -/

/-- `Request(kind)`: the last request wins (R810). -/
def request (k : Interrupt) (s : State) : State := s.setPending (some k)

/-- What enters through the shared path (R820). -/
inductive Entry where
  | brk
  | irq
  | nmi
  deriving DecidableEq, Repr

/-- Bit 4 of the pushed status byte and the new B: 1 for BRK only (R820, D7). -/
def entryBreak : Entry → Bool
  | .brk => true
  | .irq => false
  | .nmi => false

/-- The vector (R106, R820). -/
def entryVector : Entry → Addr
  | .brk => 0xFFFE
  | .irq => 0xFFFE
  | .nmi => 0xFFFA

/-- `TakeInterrupt(kind)` (R820): push PC and P, set I, write B, load PC from the vector. -/
def takeInterrupt (k : Entry) (s : State) : State :=
  let s := push8 (packP (entryBreak k) s.flags) (push16 s.pc s)
  let s := s.setFlags { s.flags with i := true, b := entryBreak k }
  let (w, s) := read16 (entryVector k) s
  s.setPc w

/-- The return from an interrupt (R713, R821): P from the stack, then PC, with no + 1. -/
def returnFromInterrupt (s : State) : State :=
  let (p, s) := pull8 s
  let (w, s) := pull16 (s.setFlags (unpackP p))
  s.setPc w

/-! ### Reset (R900, R901) -/

/-- `ResetSequence()` (R901): PC from 0xFFFC, S = 0xFF, I = 1; A, X, Y and the other flags are draws. -/
def resetSequence (s : State) : State :=
  let (w, s) := read16 0xFFFC s
  let (a, s) := drawByte s
  let (x, s) := drawByte s
  let (y, s) := drawByte s
  let (p, s) := drawByte s
  { s with pc := w, sp := 0xFF, a := a, x := x, y := y, flags := { unpackP p with i := true } }

/-- A drawn byte into the stack byte at `0x0100 + sp` (R901). -/
def drawStackByte (sp : Byte) (s : State) : State :=
  let (v, s) := drawByte s
  busWrite (stackAddr sp) v s

/-- What servicing a pending RESET does (R901, D19): the reset sequence, and the three stack bytes
0x01FD, 0x01FE and 0x01FF become draws. -/
def servicedReset (s : State) : State :=
  drawStackByte 0xFF (drawStackByte 0xFE (drawStackByte 0xFD (resetSequence s)))

/-- The contract operation `reset()` (R900). -/
def hostReset (s : State) : State := { resetSequence s with pending := none, remaining := 0 }

/-! ### Service (R815) -/

/-- `Service()`: at most one pending request, before the opcode fetch (R815). -/
def service (s : State) : State :=
  match s.pending with
  | none => s
  | some .nmi => (takeInterrupt .nmi (s.setPending none)).charge 7
  | some .reset => (servicedReset (s.setPending none)).charge 7
  | some .irq =>
    if s.flags.i then
      match s.params.maskedIrq with
      | .drop => s.setPending none
      | .retain => s
    else (takeInterrupt .irq (s.setPending none)).charge 7

end Sys2Proof.Machine
end

