-- ==== Sys2Proof/Machine/Operands.lean ====
section
/-!
DEFINITION. Every operand form (30_encoding.md R210-R223): the memory modes and their effective
addresses, the page-cross test and its penalty (70_reset_and_hazards.md R921), and the three ways an
instruction uses an operand: read, write, read-modify-write (R223). The forms of each mnemonic
(Syntax.lean) are taken to these.
-/

namespace Sys2Proof.Machine

/-- The memory addressing modes (R211-R216, R218, R219). -/
inductive Mode where
  | zp (z : Byte)
  | zpX (z : Byte)
  | zpY (z : Byte)
  | abs (a : Addr)
  | absX (a : Addr)
  | absY (a : Addr)
  | indX (z : Byte)
  | indY (z : Byte)
  deriving DecidableEq, Repr

/-- An operand that is read: the immediate byte or memory (R210, R223). -/
inductive ReadOperand where
  | imm (b : Byte)
  | mem (m : Mode)
  deriving DecidableEq, Repr

/-- An operand that is read and written back: A or memory (R221, R223). -/
inductive RmwOperand where
  | acc
  | mem (m : Mode)
  deriving DecidableEq, Repr

/-! ### Effective addresses -/

/-- The address `z` in page 0. -/
def zpAddr (z : Byte) : Addr := word16 0x00 z

/-- The pointer at `p` in page 0; its second byte wraps within page 0 (R218, R219, D4). Both reads are of
RAM, which a read leaves as it is (R103). -/
def zpPointer (p : Byte) (s : State) : Addr :=
  word16 (busRead (zpAddr (p + 1)) s).1 (busRead (zpAddr p) s).1

/-- The address an indexed mode starts from, before the 16-bit sum that can cross a page (R215, R216, R219). -/
def baseAddr (m : Mode) (s : State) : Addr :=
  match m with
  | .zp z => zpAddr z
  | .zpX z => zpAddr (z + s.x)
  | .zpY z => zpAddr (z + s.y)
  | .abs a => a
  | .absX a => a
  | .absY a => a
  | .indX z => zpPointer (z + s.x) s
  | .indY z => zpPointer z s

/-- `EA(mode)` (R211-R216, R218, R219): zero-page sums wrap in 8 bits, the others in 16 (D3). -/
def effAddr (m : Mode) (s : State) : Addr :=
  match m with
  | .absX _ => baseAddr m s + s.x.setWidth 16
  | .absY _ => baseAddr m s + s.y.setWidth 16
  | .indY _ => baseAddr m s + s.y.setWidth 16
  | _ => baseAddr m s

/-- `crossed` (R215, R216, R219): the sum left the page of its base. -/
def crossed (m : Mode) (s : State) : Bool := hiByte (baseAddr m s) != hiByte (effAddr m s)

/-- The page-cross penalty of a read (R921). -/
def crossPenalty (m : Mode) (s : State) : Nat :=
  if s.params.penalties = .nmos ∧ crossed m s then 1 else 0

/-! ### Using an operand (R223) -/

/-- `Operand(mode)` (R300): the immediate byte, or one read of the effective address, with its penalty. -/
def readOperand (o : ReadOperand) (s : State) : Byte × State :=
  match o with
  | .imm b => (b, s)
  | .mem m => busRead (effAddr m s) (s.charge (crossPenalty m s))

/-- A write instruction: one write of the effective address, no read, no penalty (R223, R304, R921). -/
def writeOperand (m : Mode) (v : Byte) (s : State) : State := busWrite (effAddr m s) v s

/-- A read-modify-write: one read and then one write of the same place; `f` gives the new byte and the
new flags (R223, R410, R501). -/
def modifyOperand (f : Byte → Flags → Byte × Flags) (o : RmwOperand) (s : State) : State :=
  match o with
  | .acc =>
    let r := f s.a s.flags
    (s.setA r.1).setFlags r.2
  | .mem m =>
    let ea := effAddr m s
    let (v, s) := busRead ea s
    let r := f v s.flags
    (busWrite ea r.1 s).setFlags r.2

/-! ### The forms of each mnemonic -/

/-- LDA, ADC, SBC, AND, ORA, EOR, CMP. -/
def loadOperand : LoadForm → ReadOperand
  | .imm b => .imm b
  | .zp z => .mem (.zp z)
  | .zpX z => .mem (.zpX z)
  | .abs a => .mem (.abs a)
  | .absX a => .mem (.absX a)
  | .absY a => .mem (.absY a)
  | .indX z => .mem (.indX z)
  | .indY z => .mem (.indY z)

/-- LDX. -/
def ldxOperand : LdxForm → ReadOperand
  | .imm b => .imm b
  | .zp z => .mem (.zp z)
  | .zpY z => .mem (.zpY z)
  | .abs a => .mem (.abs a)
  | .absY a => .mem (.absY a)

/-- LDY. -/
def ldyOperand : LdyForm → ReadOperand
  | .imm b => .imm b
  | .zp z => .mem (.zp z)
  | .zpX z => .mem (.zpX z)
  | .abs a => .mem (.abs a)
  | .absX a => .mem (.absX a)

/-- CPX, CPY. -/
def cpOperand : CpForm → ReadOperand
  | .imm b => .imm b
  | .zp z => .mem (.zp z)
  | .abs a => .mem (.abs a)

/-- BIT. -/
def bitOperand : BitForm → ReadOperand
  | .zp z => .mem (.zp z)
  | .abs a => .mem (.abs a)

/-- STA. -/
def staMode : StaForm → Mode
  | .zp z => .zp z
  | .zpX z => .zpX z
  | .abs a => .abs a
  | .absX a => .absX a
  | .absY a => .absY a
  | .indX z => .indX z
  | .indY z => .indY z

/-- STX. -/
def stxMode : StxForm → Mode
  | .zp z => .zp z
  | .zpY z => .zpY z
  | .abs a => .abs a

/-- STY. -/
def styMode : StyForm → Mode
  | .zp z => .zp z
  | .zpX z => .zpX z
  | .abs a => .abs a

/-- ASL, LSR, ROL, ROR. -/
def shiftOperand : ShiftForm → RmwOperand
  | .acc => .acc
  | .zp z => .mem (.zp z)
  | .zpX z => .mem (.zpX z)
  | .abs a => .mem (.abs a)
  | .absX a => .mem (.absX a)

/-- INC, DEC. -/
def incMode : IncForm → Mode
  | .zp z => .zp z
  | .zpX z => .zpX z
  | .abs a => .abs a
  | .absX a => .absX a

end Sys2Proof.Machine
end

