-- ==== Sys2Proof/Machine/Arith.lean ====
section
/-!
DEFINITION. Arithmetic, logic, compare and increment instructions (41_arithmetic_logic.md R401-R415).
-/

namespace Sys2Proof.Machine

/-- An operation of A and an operand that writes A and flags (R401-R405). -/
def accumulate (f : Byte → Byte → Flags → Byte × Flags) (o : ReadOperand) (s : State) : State :=
  let (m, s) := readOperand o s
  let r := f s.a m s.flags
  (s.setA r.1).setFlags r.2

/-- A bitwise operation as `accumulate` takes it: N and Z from the result (R403-R405). -/
def bitwise (g : Byte → Byte → Byte) (a m : Byte) (f : Flags) : Byte × Flags := (g a m, setNZ (g a m) f)

/-- An operation of a register value and an operand that writes flags only (R406-R409). -/
def testWith (f : Byte → Byte → Flags → Flags) (r : Byte) (o : ReadOperand) (s : State) : State :=
  let (m, s) := readOperand o s
  s.setFlags (f r m s.flags)

/-- ADC (R401). -/
def execAdc (o : LoadForm) (s : State) : Host.Outcome State Fault Refusal :=
  .next (accumulate adc (loadOperand o) s)

/-- SBC (R402). -/
def execSbc (o : LoadForm) (s : State) : Host.Outcome State Fault Refusal :=
  .next (accumulate sbc (loadOperand o) s)

/-- AND (R403). -/
def execAnd (o : LoadForm) (s : State) : Host.Outcome State Fault Refusal :=
  .next (accumulate (bitwise (· &&& ·)) (loadOperand o) s)

/-- ORA (R404). -/
def execOra (o : LoadForm) (s : State) : Host.Outcome State Fault Refusal :=
  .next (accumulate (bitwise (· ||| ·)) (loadOperand o) s)

/-- EOR (R405). -/
def execEor (o : LoadForm) (s : State) : Host.Outcome State Fault Refusal :=
  .next (accumulate (bitwise (· ^^^ ·)) (loadOperand o) s)

/-- CMP (R406). -/
def execCmp (o : LoadForm) (s : State) : Host.Outcome State Fault Refusal :=
  .next (testWith compare s.a (loadOperand o) s)

/-- CPX (R407). -/
def execCpx (o : CpForm) (s : State) : Host.Outcome State Fault Refusal :=
  .next (testWith compare s.x (cpOperand o) s)

/-- CPY (R408). -/
def execCpy (o : CpForm) (s : State) : Host.Outcome State Fault Refusal :=
  .next (testWith compare s.y (cpOperand o) s)

/-- BIT (R409). -/
def execBit (o : BitForm) (s : State) : Host.Outcome State Fault Refusal :=
  .next (testWith bitTest s.a (bitOperand o) s)

/-- INC (R410). -/
def execInc (o : IncForm) (s : State) : Host.Outcome State Fault Refusal :=
  .next (modifyOperand incByte (.mem (incMode o)) s)

/-- DEC (R411). -/
def execDec (o : IncForm) (s : State) : Host.Outcome State Fault Refusal :=
  .next (modifyOperand decByte (.mem (incMode o)) s)

/-- A register stepped by one, with N and Z (R412-R415). -/
def stepRegister (set : Byte → State → State) (f : Byte → Flags → Byte × Flags) (v : Byte) (s : State) : State :=
  let r := f v s.flags
  (set r.1 s).setFlags r.2

/-- INX (R412). -/
def execInx (s : State) : Host.Outcome State Fault Refusal :=
  .next (stepRegister State.setX incByte s.x s)

/-- INY (R413). -/
def execIny (s : State) : Host.Outcome State Fault Refusal :=
  .next (stepRegister State.setY incByte s.y s)

/-- DEX (R414). -/
def execDex (s : State) : Host.Outcome State Fault Refusal :=
  .next (stepRegister State.setX decByte s.x s)

/-- DEY (R415). -/
def execDey (s : State) : Host.Outcome State Fault Refusal :=
  .next (stepRegister State.setY decByte s.y s)

end Sys2Proof.Machine
end

