-- ==== Sys2Proof/Machine/Control.lean ====
section
/-!
DEFINITION. Branch, jump and subroutine instructions (43_control_transfer.md R600-R611).
-/

namespace Sys2Proof.Machine

/-- The target of a branch whose next instruction is at `pc` (R220). -/
def branchTarget (pc : Addr) (off : Byte) : Addr := pc + off.signExtend 16

/-- The penalties of a taken branch (R600, R921): 1, and 1 more when it lands in another page. -/
def branchPenalty (p : Params) (pc target : Addr) : Nat :=
  if p.penalties = .nmos then (if hiByte pc != hiByte target then 2 else 1) else 0

/-- A conditional branch (R600). -/
def branchIf (cond : Bool) (off : Byte) (s : State) : State :=
  if cond then
    let target := branchTarget s.pc off
    (s.charge (branchPenalty s.params s.pc target)).setPc target
  else s

/-- BPL: taken when N = 0 (R601). -/
def execBpl (off : Byte) (s : State) : Host.Outcome State Fault Refusal :=
  .next (branchIf (!s.flags.n) off s)

/-- BMI: taken when N = 1 (R602). -/
def execBmi (off : Byte) (s : State) : Host.Outcome State Fault Refusal :=
  .next (branchIf s.flags.n off s)

/-- BVC: taken when V = 0 (R603). -/
def execBvc (off : Byte) (s : State) : Host.Outcome State Fault Refusal :=
  .next (branchIf (!s.flags.v) off s)

/-- BVS: taken when V = 1 (R604). -/
def execBvs (off : Byte) (s : State) : Host.Outcome State Fault Refusal :=
  .next (branchIf s.flags.v off s)

/-- BCC: taken when C = 0 (R605). -/
def execBcc (off : Byte) (s : State) : Host.Outcome State Fault Refusal :=
  .next (branchIf (!s.flags.c) off s)

/-- BCS: taken when C = 1 (R606). -/
def execBcs (off : Byte) (s : State) : Host.Outcome State Fault Refusal :=
  .next (branchIf s.flags.c off s)

/-- BNE: taken when Z = 0 (R607). -/
def execBne (off : Byte) (s : State) : Host.Outcome State Fault Refusal :=
  .next (branchIf (!s.flags.z) off s)

/-- BEQ: taken when Z = 1 (R608). -/
def execBeq (off : Byte) (s : State) : Host.Outcome State Fault Refusal :=
  .next (branchIf s.flags.z off s)

/-- The high byte of an indirect jump's pointer stays in the pointer's page (R217, JMP_IND_PAGE_WRAP, D5). -/
def pointerHigh (ptr : Addr) : Addr := word16 (hiByte ptr) (loByte ptr + 1)

/-- JMP (R609; R217 for the indirect form). -/
def execJmp (o : JmpForm) (s : State) : Host.Outcome State Fault Refusal :=
  match o with
  | .abs a => .next (s.setPc a)
  | .ind ptr =>
    let (lo, s) := busRead ptr s
    let (hi, s) := busRead (pointerHigh ptr) s
    .next (s.setPc (word16 hi lo))

/-- JSR (R610): pushes the address of its own last byte. -/
def execJsr (a : Addr) (s : State) : Host.Outcome State Fault Refusal :=
  .next ((push16 (s.pc - 1) s).setPc a)

/-- RTS (R611): the pulled address plus one; P is not touched. -/
def execRts (s : State) : Host.Outcome State Fault Refusal :=
  let (w, s) := pull16 s
  .next (s.setPc (w + 1))

end Sys2Proof.Machine
end

