-- ==== Sys2Proof/Machine/LoadStore.lean ====
section
/-!
DEFINITION. Load, store and register transfer instructions (40_load_store_transfer.md R301-R312). PC is already
the address after the instruction and the base cost is charged (R300).
-/

namespace Sys2Proof.Machine

/-- Load a register: write it and set N and Z (R301-R303). -/
def loadInto (set : Byte → State → State) (o : ReadOperand) (s : State) : State :=
  let (v, s) := readOperand o s
  (set v s).setFlags (setNZ v s.flags)

/-- Transfer a value to a register and set N and Z (R307-R311). -/
def transferInto (set : Byte → State → State) (v : Byte) (s : State) : State :=
  (set v s).setFlags (setNZ v s.flags)

/-- LDA (R301). -/
def execLda (o : LoadForm) (s : State) : Host.Outcome State Fault Refusal :=
  .next (loadInto State.setA (loadOperand o) s)

/-- LDX (R302). -/
def execLdx (o : LdxForm) (s : State) : Host.Outcome State Fault Refusal :=
  .next (loadInto State.setX (ldxOperand o) s)

/-- LDY (R303). -/
def execLdy (o : LdyForm) (s : State) : Host.Outcome State Fault Refusal :=
  .next (loadInto State.setY (ldyOperand o) s)

/-- STA (R304): no flags. -/
def execSta (o : StaForm) (s : State) : Host.Outcome State Fault Refusal :=
  .next (writeOperand (staMode o) s.a s)

/-- STX (R305): no flags. -/
def execStx (o : StxForm) (s : State) : Host.Outcome State Fault Refusal :=
  .next (writeOperand (stxMode o) s.x s)

/-- STY (R306): no flags. -/
def execSty (o : StyForm) (s : State) : Host.Outcome State Fault Refusal :=
  .next (writeOperand (styMode o) s.y s)

/-- TAX (R307). -/
def execTax (s : State) : Host.Outcome State Fault Refusal :=
  .next (transferInto State.setX s.a s)

/-- TAY (R308). -/
def execTay (s : State) : Host.Outcome State Fault Refusal :=
  .next (transferInto State.setY s.a s)

/-- TXA (R309). -/
def execTxa (s : State) : Host.Outcome State Fault Refusal :=
  .next (transferInto State.setA s.x s)

/-- TYA (R310). -/
def execTya (s : State) : Host.Outcome State Fault Refusal :=
  .next (transferInto State.setA s.y s)

/-- TSX (R311). -/
def execTsx (s : State) : Host.Outcome State Fault Refusal :=
  .next (transferInto State.setX s.sp s)

/-- TXS (R312): no flags. -/
def execTxs (s : State) : Host.Outcome State Fault Refusal :=
  .next (s.setSp s.x)

end Sys2Proof.Machine
end

