-- ==== Sys2Proof/Machine/Shift.lean ====
section
/-!
DEFINITION. Shift and rotate instructions (42_shift_rotate.md R501-R504).
-/

namespace Sys2Proof.Machine

/-- ASL (R501). -/
def execAsl (o : ShiftForm) (s : State) : Host.Outcome State Fault Refusal :=
  .next (modifyOperand aslByte (shiftOperand o) s)

/-- LSR (R502). -/
def execLsr (o : ShiftForm) (s : State) : Host.Outcome State Fault Refusal :=
  .next (modifyOperand lsrByte (shiftOperand o) s)

/-- ROL (R503). -/
def execRol (o : ShiftForm) (s : State) : Host.Outcome State Fault Refusal :=
  .next (modifyOperand rolByte (shiftOperand o) s)

/-- ROR (R504). -/
def execRor (o : ShiftForm) (s : State) : Host.Outcome State Fault Refusal :=
  .next (modifyOperand rorByte (shiftOperand o) s)

end Sys2Proof.Machine
end

