-- ==== Sys2Proof/Machine/System.lean ====
section
/-!
DEFINITION. Stack, flag, system and unknown-opcode instructions (44_stack_flags_system.md R701-R715).
-/

namespace Sys2Proof.Machine

/-- PHA (R701). -/
def execPha (s : State) : Host.Outcome State Fault Refusal :=
  .next (push8 s.a s)

/-- PLA (R702). -/
def execPla (s : State) : Host.Outcome State Fault Refusal :=
  let (v, s) := pull8 s
  .next (transferInto State.setA v s)

/-- PHP (R703): bits 5 and 4 pushed as 1. -/
def execPhp (s : State) : Host.Outcome State Fault Refusal :=
  .next (push8 (packP true s.flags) s)

/-- PLP (R704). -/
def execPlp (s : State) : Host.Outcome State Fault Refusal :=
  let (p, s) := pull8 s
  .next (s.setFlags (unpackP p))

/-- CLC (R705). -/
def execClc (s : State) : Host.Outcome State Fault Refusal :=
  .next (s.setFlags { s.flags with c := false })

/-- SEC (R706). -/
def execSec (s : State) : Host.Outcome State Fault Refusal :=
  .next (s.setFlags { s.flags with c := true })

/-- CLI (R707). -/
def execCli (s : State) : Host.Outcome State Fault Refusal :=
  .next (s.setFlags { s.flags with i := false })

/-- SEI (R708). -/
def execSei (s : State) : Host.Outcome State Fault Refusal :=
  .next (s.setFlags { s.flags with i := true })

/-- CLD (R709). -/
def execCld (s : State) : Host.Outcome State Fault Refusal :=
  .next (s.setFlags { s.flags with d := false })

/-- SED (R710). -/
def execSed (s : State) : Host.Outcome State Fault Refusal :=
  .next (s.setFlags { s.flags with d := true })

/-- CLV (R711). -/
def execClv (s : State) : Host.Outcome State Fault Refusal :=
  .next (s.setFlags { s.flags with v := false })

/-- BRK (R712): PC is already past the padding byte, which is fetched and ignored; then the shared entry. -/
def execBrk (_pad : Byte) (s : State) : Host.Outcome State Fault Refusal :=
  .next (takeInterrupt .brk s)

/-- RTI (R713). -/
def execRti (s : State) : Host.Outcome State Fault Refusal :=
  .next (returnFromInterrupt s)

/-- NOP (R714). -/
def execNop (s : State) : Host.Outcome State Fault Refusal :=
  .next s

/-- `Diagnostic(info)` (R803): appended to the log, nothing else. -/
def diagnostic (op : Byte) (a : Addr) (s : State) : State :=
  { s with diag := s.diag ++ [{ opcode := op, addr := a }] }

/-- An unknown opcode (R715): a 1-byte no-op that records a diagnostic with its fetch address, PC - 1. -/
def execIll (op : Byte) (s : State) : Host.Outcome State Fault Refusal :=
  .next (diagnostic op (s.pc - 1) s)

end Sys2Proof.Machine
end

