-- ==== Sys2Proof/Machine/Render.lean ====
section
/-!
DEFINITION. The scanline rasterizer (80_ppu.md R1030-R1046): background, sprites, priority, clipping and
sprite-zero hit. It reads the PPU state as it stands when the frame driver calls it.
-/

namespace Sys2Proof.Machine

/-- One pixel of the line being rendered: its palette byte and the two occupied flags (R1030). -/
structure Pixel where
  colour : Byte
  bgOpaque : Bool
  sprOcc : Bool
  deriving DecidableEq, Repr

/-- The line being rendered: 256 pixels. -/
abbrev Line := List Pixel

/-- Both bit planes of an 8-pixel row of a tile (R1032). -/
structure Row8 where
  lo : Byte
  hi : Byte
  deriving DecidableEq, Repr

/-- `PatternRow` (R1032). -/
def patternRow (base tile row : Nat) (s : State) : Row8 :=
  { lo := ppuRead (BitVec.ofNat 14 (base + 16 * tile + row)) s
    hi := ppuRead (BitVec.ofNat 14 (base + 16 * tile + row + 8)) s }

/-- The colour index of pixel `p` (0 leftmost) of a row: lo[7-p] and hi[7-p] (R1032). -/
def colourIndex (r : Row8) (p : Nat) : Nat :=
  (r.lo.getLsbD (7 - p)).toNat + 2 * (r.hi.getLsbD (7 - p)).toNat

/-- `Clipped(BG, sx)` (R1046). -/
def clippedBg (p : Ppu) (sx : Nat) : Bool := sx < 8 && !p.mask.getLsbD 1

/-- `Clipped(SP, sx)` (R1046). -/
def clippedSp (p : Ppu) (sx : Nat) : Bool := sx < 8 && !p.mask.getLsbD 2

/-! ### Background (R1031) -/

/-- The row and the palette of the tile v names (R1031). -/
def bgTile (s : State) : Row8 × Nat :=
  let v := s.ppu.v.toNat
  let tile := ppuRead (BitVec.ofNat 14 (0x2000 + v % 0x1000)) s
  let at' := ppuRead (BitVec.ofNat 14 (0x23C0 ||| (v &&& 0x0C00) ||| ((v >>> 4) &&& 0x38) ||| ((v >>> 2) &&& 0x07))) s
  let shift := ((v >>> 4) &&& 0x04) ||| (v &&& 0x02)
  (patternRow (if s.ppu.ctrl.getLsbD 4 then 0x1000 else 0) tile.toNat ((v >>> 12) &&& 0x07) s,
    (at'.toNat >>> shift) &&& 0x03)

/-- Pixel `p` of the `k`-th tile of the line (R1031). -/
def bgPixel (k : Nat) (t : Row8 × Nat) (s : State) (line : Line) (p : Nat) : Line :=
  let at' := 8 * k + p
  if at' < s.ppu.x.toNat then line
  else
    let sx := at' - s.ppu.x.toNat
    let c := colourIndex t.1 p
    if 255 < sx ∨ clippedBg s.ppu sx ∨ c = 0 then line
    else line.modify sx (fun px => { px with colour := s.ppu.pal.read (4 * t.2 + c), bgOpaque := true })

/-- The `k`-th tile of the line; v's coarse X advances after it (R1031, R1033). -/
def bgStep (acc : Line × State) (k : Nat) : Line × State :=
  let (line, s) := acc
  ((List.range 8).foldl (bgPixel k (bgTile s) s) line, { s with ppu := { s.ppu with v := incCoarseX s.ppu.v } })

/-- `RenderBackground` (R1031): 33 tiles. -/
def renderBackground (line : Line) (s : State) : Line × State := (List.range 33).foldl bgStep (line, s)

/-! ### Sprites (R1040-R1042) -/

/-- An OAM entry (R1041). -/
structure Sprite where
  y : Nat
  tile : Nat
  attr : Byte
  x : Nat
  deriving DecidableEq, Repr

/-- OAM entry `i` (R1041). -/
def spriteAt (i : Nat) (p : Ppu) : Sprite :=
  { y := (p.oam.read (4 * i)).toNat, tile := (p.oam.read (4 * i + 1)).toNat, attr := p.oam.read (4 * i + 2)
    x := (p.oam.read (4 * i + 3)).toNat }

/-- The sprite height (R1020, R1040). -/
def spriteHeight (p : Ppu) : Nat := if p.ctrl.getLsbD 5 then 16 else 8

/-- `SpriteRow` (R1042). -/
def spriteRow (sp : Sprite) (row h : Nat) (s : State) : Row8 :=
  let row := if sp.attr.getLsbD 7 then h - 1 - row else row
  if h = 8 then patternRow (if s.ppu.ctrl.getLsbD 3 then 0x1000 else 0) sp.tile row s
  else
    patternRow (if sp.tile % 2 = 1 then 0x1000 else 0) (sp.tile / 2 * 2 + (if 8 ≤ row then 1 else 0)) (row % 8) s

/-- The row of a sprite that a line shows, if its Y range covers the line (R1040, D36). -/
def spriteOnLine (sp : Sprite) (line : Nat) (s : State) : Option Row8 :=
  let h := spriteHeight s.ppu
  let top := sp.y + spriteYOffset
  if top ≤ line ∧ line - top < h then some (spriteRow sp (line - top) h s) else none

/-- The pattern column of screen column `col` (R1040, horizontal flip). -/
def flipColumn (attr : Byte) (col : Nat) : Nat := if attr.getLsbD 6 then 7 - col else col

/-- Column `col` of a sprite's row (R1040): the first opaque pixel claims the place, even behind the
background (D71). -/
def spritePixel (sp : Sprite) (r : Row8) (p : Ppu) (line : Line) (col : Nat) : Line :=
  let c := colourIndex r (flipColumn sp.attr col)
  let sx := sp.x + col
  if 255 < sx ∨ c = 0 ∨ clippedSp p sx then line
  else
    line.modify sx (fun px =>
      if px.sprOcc then px
      else if sp.attr.getLsbD 5 && px.bgOpaque then { px with sprOcc := true }
      else
        { px with sprOcc := true, colour := p.pal.read (0x10 + 4 * (sp.attr.toNat % 4) + c) })

/-- One OAM entry drawn into the line (R1040). -/
def spriteStep (n : Nat) (s : State) (line : Line) (i : Nat) : Line :=
  let sp := spriteAt i s.ppu
  match spriteOnLine sp n s with
  | none => line
  | some r => (List.range 8).foldl (spritePixel sp r s.ppu) line

/-- `RenderSprites` (R1040): all 64 entries in OAM order, no limit per line (D34). -/
def renderSprites (n : Nat) (line : Line) (s : State) : Line := (List.range 64).foldl (spriteStep n s) line

/-! ### The line (R1030) and sprite-zero hit (R1044) -/

/-- `rendering(line, fb)` (R1030). -/
def renderLine (n : Nat) (s : State) : State :=
  let blank : Line := List.replicate 256 { colour := s.ppu.pal.read 0, bgOpaque := false, sprOcc := false }
  let (line, s) := if s.ppu.mask.getLsbD 3 then renderBackground blank s else (blank, s)
  let line := if s.ppu.mask.getLsbD 4 then renderSprites n line s else line
  { s with frame := { s.frame with fb := s.frame.fb.writeRun (256 * n) (line.map Pixel.colour) } }

/-- Does sprite 0 have an opaque pixel on the line (R1044, SPRITE0_NEEDS_BG = false)? -/
def spriteZeroOpaque (n : Nat) (s : State) : Bool :=
  let sp := spriteAt 0 s.ppu
  match spriteOnLine sp n s with
  | none => false
  | some r =>
    (List.range 8).any (fun col => decide (sp.x + col ≤ 255) && colourIndex r (flipColumn sp.attr col) != 0)

/-- `spriteEvaluation(line)` (R1044). -/
def spriteEvaluation (n : Nat) (s : State) : State :=
  if s.ppu.mask.getLsbD 4 && spriteZeroOpaque n s then { s with ppu := { s.ppu with sprite0hit := true } } else s

end Sys2Proof.Machine
end

