-- ==== Sys2Proof/Machine/Sound.lean ====
section
/-!
DEFINITION. Audio synthesis (81_apu.md R1103, R1104, R1151): applying due writes, advancing every unit
over a sample, the DMC's fetch and IRQ, and the block handed to the host.
-/

namespace Sys2Proof.Machine

/-- Set the APU. -/
def State.setApu (u : Apu) (s : State) : State := { s with apu := u }

/-- The DMC takes its next sample byte through the bus (R1151). -/
def dmcFetch (s : State) : State :=
  let c := s.apu.dmc
  let (b, s) := busRead c.addr s
  let left := c.bytesLeft - 1
  let c :=
    { c with
      shift := b, addr := if c.addr = 0xFFFF then 0x8000 else c.addr + 1, bytesLeft := left, bitsLeft := 8 }
  if left ≠ 0 then s.setApu { s.apu with dmc := c }
  else if c.loop then s.setApu { s.apu with dmc := { c with addr := c.addrLatch, bytesLeft := c.lenLatch } }
  else if c.irqEnable then request .irq (s.setApu { s.apu with dmc := { c with irq := true } })
  else s.setApu { s.apu with dmc := c }

/-- One output bit is consumed (R1151): a fetch first when no bit is left, or silence when no byte is. -/
def dmcBit (s : State) : State :=
  let s :=
    if s.apu.dmc.bitsLeft ≠ 0 then s
    else if s.apu.dmc.bytesLeft ≠ 0 then dmcFetch s
    else s.setApu { s.apu with dmc := { s.apu.dmc with silent := true } }
  s.setApu { s.apu with dmc := s.apu.dmc.shiftBit }

/-- One CPU cycle of the DMC timer: when it reaches 0 it reloads and a bit is consumed (R1151; log 17). A timer that
holds 0 already, as it can from power-on only, reloads and consumes a bit on its first cycle (DESIGN CHOICE, log 17). -/
def dmcTick (s : State) : State :=
  let c := s.apu.dmc
  if c.timer.toNat ≤ 1 then
    dmcBit (s.setApu { s.apu with
      dmc := { c with timer := BitVec.ofNat 9 (dmcTable.getD c.rateIdx.toNat 0) } })
  else s.setApu { s.apu with dmc := { c with timer := c.timer - 1 } }

/-- CPU cycle `c` of every channel timer (R1104; log 16). -/
def apuCycle (c : Nat) (s : State) : State := dmcTick (s.setApu (s.apu.timers c))

/-- `n` CPU cycles from cycle `c` on. -/
def apuCycles : Nat → Nat → State → State
  | 0, _, s => s
  | n + 1, c, s => apuCycles n (c + 1) (apuCycle c s)

/-- One sample of `createSound` (R1103): apply the due writes, advance every unit over the sample's whole
cycles, move the cursor (log 16, log 18). -/
def synthSample (s : State) : State :=
  let p := s.params
  let start := s.apu.cursor
  let tk := start + p.cpuClockHz
  let u := Apu.applyDue p.sampleRate tk s.apu.queue s.apu
  let s := s.setApu (u.sequencerAdvance p)
  let s := apuCycles (tk / p.sampleRate - start / p.sampleRate) (start / p.sampleRate + 1) s
  s.setApu { s.apu with cursor := tk }

/-- `n` samples; the mixed samples in order. -/
def synthSamples : Nat → State → List Int × State
  | 0, s => ([], s)
  | n + 1, s =>
    let s := synthSample s
    let (rest, t) := synthSamples n s
    (s.apu.mixed :: rest, t)

/-- `createSound(buf)` with `n` samples (R1103). -/
def createSound (n : Nat) (s : State) : State :=
  let (buf, s) := synthSamples n s
  s.setApu { s.apu with sound := buf }

end Sys2Proof.Machine
end

