-- ==== Sys2Proof/Machine/Driver.lean ====
section
/-!
DEFINITION. The frame driver (82_io_decoder_and_frame.md R1250-R1262) and the host's actions between `run`
calls (70_reset_and_hazards.md R950). A line is two driver steps around the CPU's iterations: its
start, up to the `run` call, and its end, after it (log 12).
-/

namespace Sys2Proof.Machine

/-- Set the PPU. -/
def State.setPpu (p : Ppu) (s : State) : State := { s with ppu := p }

/-- Set the frame driver. -/
def State.setFrame (f : Frame) (s : State) : State := { s with frame := f }

/-! ### The host (R950) -/

/-- One host action (R950). -/
def hostEvent (s : State) (e : HostEvent) : State :=
  match e with
  | .createSound n => createSound n s
  | .requestReset => request .reset s
  | .reset => hostReset s
  | .stop => s.setFrame { s.frame with stop := true }

/-- The host's actions at a point of the current line, in order (log 9). -/
def hostActs (p : HostPoint) (s : State) : State :=
  (Config.hostEvents s.frame.count s.frame.line p).foldl hostEvent s

/-! ### The line's start -/

/-- The snapshot of both pads, at the start of a frame (R1250, R1260, D69). The indices stay. -/
def takeSnapshot (s : State) : State :=
  { s with pads := { s.pads with
      snap0 := Config.padInput s.frame.count 0, snap1 := Config.padInput s.frame.count 1 } }

/-- A visible line's scroll copy, rendering and sprite evaluation (R1250). -/
def visibleLine (s : State) : State :=
  let s := if renderingEnabled s.ppu then s.setPpu (copyX s.ppu) else s
  spriteEvaluation s.frame.line (renderLine s.frame.line s)

/-- The driver's actions before the line's `run` call (R1250). -/
def beforeLine (s : State) : State :=
  let s := if s.frame.line = 0 then takeSnapshot s else s
  let s := if s.frame.line ≤ 239 then visibleLine s else s
  if s.frame.line = 261 then s.setPpu { s.ppu with vblank := false, sprite0hit := false } else s

/-- The entry of `run(budget)`: the budget is added to `remaining` (R903). -/
def beginRun (s : State) : State :=
  { s with remaining := s.remaining + (Config.scanlineBudget s.frame.count s.frame.line).toInt
           frame := { s.frame with phase := .running } }

/-- The start of a line. -/
def startLine (s : State) : State := beginRun (hostActs .beforeRun (beforeLine s))

/-! ### The line's end -/

/-- `StartVblank()` (R1251): an NMI only if PPUCTRL bit 7 is 1 now. -/
def startVblank (s : State) : State :=
  let s := s.setPpu { s.ppu with vblank := true }
  if s.ppu.ctrl.getLsbD 7 then request .nmi s else s

/-- The driver's actions after the line's `run` call (R1250). -/
def afterLine (s : State) : State :=
  let s := if s.frame.line ≤ 239 ∧ renderingEnabled s.ppu then s.setPpu { s.ppu with v := incY s.ppu.v } else s
  let s := if s.frame.line = 240 then startVblank s else s
  if s.frame.line = 261 ∧ renderingEnabled s.ppu then s.setPpu (copyAll s.ppu) else s

/-- `FrameEndIrq()` (R1252): requested when bits 7 and 6 of the applied $4017 value are 0. -/
def frameEndIrq (s : State) : State :=
  if !s.apu.frameLatch.getLsbD 7 && !s.apu.frameLatch.getLsbD 6 then request .irq s else s

/-- The frame's end: the frame IRQ, the picture to the display sink, the frame count, and the stop flag
(R1250, R1261, R1262). -/
def endFrame (s : State) : State :=
  let s := frameEndIrq s
  s.setFrame { s.frame with
    display := s.frame.fb, count := s.frame.count + 1, line := 0
    phase := if s.frame.stop then .ended else .lineStart }

/-- The end of a line. -/
def endLine (s : State) : State :=
  let s := afterLine (hostActs .afterRun s)
  if s.frame.line = 261 then endFrame s
  else s.setFrame { s.frame with line := s.frame.line + 1, phase := .lineStart }

end Sys2Proof.Machine
end

