-- ==== Sys2Proof/Machine/Timing.lean ====
section
/-!
DEFINITION. The base cycle cost of each instruction (30_encoding.md R250, R300, R905), by the forms of
each mnemonic. The penalties of R921 are charged by the operand forms and the branches.
-/

namespace Sys2Proof.Machine

/-- LDA, ADC, SBC, AND, ORA, EOR, CMP. -/
def loadCycles : LoadForm → Nat
  | .imm _ => 2
  | .zp _ => 3
  | .zpX _ => 4
  | .abs _ => 4
  | .absX _ => 4
  | .absY _ => 4
  | .indX _ => 6
  | .indY _ => 5

/-- LDX. -/
def ldxCycles : LdxForm → Nat
  | .imm _ => 2
  | .zp _ => 3
  | .zpY _ => 4
  | .abs _ => 4
  | .absY _ => 4

/-- LDY. -/
def ldyCycles : LdyForm → Nat
  | .imm _ => 2
  | .zp _ => 3
  | .zpX _ => 4
  | .abs _ => 4
  | .absX _ => 4

/-- CPX, CPY. -/
def cpCycles : CpForm → Nat
  | .imm _ => 2
  | .zp _ => 3
  | .abs _ => 4

/-- BIT. -/
def bitCycles : BitForm → Nat
  | .zp _ => 3
  | .abs _ => 4

/-- STA. -/
def staCycles : StaForm → Nat
  | .zp _ => 3
  | .zpX _ => 4
  | .abs _ => 4
  | .absX _ => 5
  | .absY _ => 5
  | .indX _ => 6
  | .indY _ => 6

/-- STX. -/
def stxCycles : StxForm → Nat
  | .zp _ => 3
  | .zpY _ => 4
  | .abs _ => 4

/-- STY. -/
def styCycles : StyForm → Nat
  | .zp _ => 3
  | .zpX _ => 4
  | .abs _ => 4

/-- ASL, LSR, ROL, ROR. -/
def shiftCycles : ShiftForm → Nat
  | .acc => 2
  | .zp _ => 5
  | .zpX _ => 6
  | .abs _ => 6
  | .absX _ => 7

/-- INC, DEC. -/
def incCycles : IncForm → Nat
  | .zp _ => 5
  | .zpX _ => 6
  | .abs _ => 6
  | .absX _ => 7

/-- JMP. -/
def jmpCycles : JmpForm → Nat
  | .abs _ => 3
  | .ind _ => 5

/-- `base_cycles` of an instruction; ILLEGAL_CYCLES for an unknown opcode (R905). -/
def baseCycles : Instr → Nat
  | .lda o => loadCycles o
  | .ldx o => ldxCycles o
  | .ldy o => ldyCycles o
  | .sta o => staCycles o
  | .stx o => stxCycles o
  | .sty o => styCycles o
  | .tax => 2
  | .tay => 2
  | .txa => 2
  | .tya => 2
  | .tsx => 2
  | .txs => 2
  | .adc o => loadCycles o
  | .sbc o => loadCycles o
  | .and o => loadCycles o
  | .ora o => loadCycles o
  | .eor o => loadCycles o
  | .cmp o => loadCycles o
  | .cpx o => cpCycles o
  | .cpy o => cpCycles o
  | .bit o => bitCycles o
  | .inc o => incCycles o
  | .dec o => incCycles o
  | .inx => 2
  | .iny => 2
  | .dex => 2
  | .dey => 2
  | .asl o => shiftCycles o
  | .lsr o => shiftCycles o
  | .rol o => shiftCycles o
  | .ror o => shiftCycles o
  | .bpl _ => 2
  | .bmi _ => 2
  | .bvc _ => 2
  | .bvs _ => 2
  | .bcc _ => 2
  | .bcs _ => 2
  | .bne _ => 2
  | .beq _ => 2
  | .jmp o => jmpCycles o
  | .jsr _ => 6
  | .rts => 6
  | .pha => 3
  | .pla => 4
  | .php => 3
  | .plp => 4
  | .clc => 2
  | .sec => 2
  | .cli => 2
  | .sei => 2
  | .cld => 2
  | .sed => 2
  | .clv => 2
  | .brk _ => 7
  | .rti => 6
  | .nop => 2
  | .ill _ => illegalCycles

end Sys2Proof.Machine
end

