-- ==== Sys2Proof/Machine/Iteration.lean ====
section
/-!
DEFINITION. One iteration of the CPU's run loop (70_reset_and_hazards.md R903-R905), and how a word of the
opcode table is put where the next iteration fetches.
-/

namespace Sys2Proof.Machine

/-- The start of an iteration: no cycle charged yet, then service (R903, R815). -/
def beginIteration (s : State) : State := service { s with cost := 0 }

/-- The end of an iteration: `remaining` and `clock` move by the cost (R903). -/
def settle (s : State) : State :=
  { s with remaining := s.remaining - s.cost, clock := s.clock + s.cost, cost := 0 }

/-- One iteration (R903): service, fetch, charge the base cost, execute, settle. -/
def iteration (s : State) : Host.Outcome State Fault Refusal :=
  let (i, s) := fetchInstr (beginIteration s)
  match exec i (s.charge (baseCycles i)) with
  | .next t => .next (settle t)
  | .fault f => .fault f
  | .refused r => .refused r

/-! ### Placing an instruction -/

/-- May a byte be placed at `a` as code: RAM, present SRAM or PRG. -/
def placeable (a : Addr) (s : State) : Bool :=
  a.toNat < 0x2000 || (0x6000 ≤ a.toNat && a.toNat < 0x8000 && s.cart.hasSram) || 0x8000 ≤ a.toNat

/-- Place a byte in RAM, SRAM or, for the loader, in the PRG image (log 14). -/
def placeByte (a : Addr) (v : Byte) (s : State) : State :=
  if a.toNat < 0x2000 then { s with ram := s.ram.write (ramIndex a) v }
  else if a.toNat < 0x8000 then { s with sram := s.sram.write (a.toNat - 0x6000) v }
  else { s with cart := { s.cart with prg := s.cart.prg.write (prgOffset a s) v } }

/-- Place bytes at consecutive addresses. -/
def placeBytes : Addr → List Byte → State → State
  | _, [], s => s
  | a, b :: bs, s => placeBytes (a + 1) bs (placeByte a b s)

/-- Where the next iteration can be made to fetch three bytes: at PC, or at 0x0000 when a byte from PC on
lies in no memory (log 14). -/
def fetchSite (s : State) : Addr :=
  if placeable s.pc s && placeable (s.pc + 1) s && placeable (s.pc + 2) s then s.pc else 0x0000

/-- A state whose next step is an iteration that services nothing: the frame driver inside a `run` call with
cycles left. Where none is left, as many as the largest `run(budget)` gives (R903; log 14). -/
def readyToRun (s : State) : State :=
  { s with
    pending := none
    remaining := if 0 < s.remaining then s.remaining else 2147483647
    frame := { s.frame with phase := .running } }

end Sys2Proof.Machine
end

