-- ==== Sys2Proof/Machine/Step.lean ====
section
/-!
DEFINITION. One step of the machine (log 12): the start of a line, one iteration of the CPU's run loop while
cycles remain, or the end of the line (82_io_decoder_and_frame.md R1250, 70_reset_and_hazards.md R903).
-/

namespace Sys2Proof.Machine

/-- One step. After the run has ended (R1262) nothing moves. -/
def step (s : State) : Host.Outcome State Fault Refusal :=
  match s.frame.phase with
  | .lineStart => .next (startLine s)
  | .running => if 0 < s.remaining then iteration s else .next (endLine s)
  | .ended => .next s

/-- `s` with the instruction whose table bits are `w` where the next step fetches, and made ready so that the
next step is the iteration that runs it (log 14). -/
def State.withFetchWord (s : State) (nbits w : Nat) : State :=
  placeBytes (fetchSite s) (tableBytes nbits w) (readyToRun (s.setPc (fetchSite s)))

end Sys2Proof.Machine
end

