-- ==== Sys2Proof/Machine/PowerOn.lean ====
section
/-!
DEFINITION. Loading a cartridge and power-on (70_reset_and_hazards.md R902, 60_exceptions.md R802,
83_mapper.md R1330-R1332, R1340). What the power-on leaves as draws is taken from a state given as argument, so
that a statement holds for every draw.
-/

namespace Sys2Proof.Machine

/-- A cartridge image: its 16 header bytes and its two arrays (R1330). -/
structure Image where
  header : List Byte
  prg : Memory
  chr : Memory
  deriving DecidableEq, Repr

/-- Why an image does not load (R802, R1332). That 0 PRG pages have a reason of their own is the model's DESIGN CHOICE
(log 26). -/
inductive LoadError where
  | badMagic
  | noPrg
  | unsupportedMapper (number : Nat)
  deriving DecidableEq, Repr

/-- Header byte `k` (0 where the list is short). -/
def Image.byte (k : Nat) (m : Image) : Byte := m.header.getD k 0

/-- The mapper number, `(byte7 & 0xF0) | (byte6 >> 4)` (R1330). -/
def Image.mapperNumber (m : Image) : Nat := ((m.byte 7 &&& 0xF0) ||| (m.byte 6 >>> 4)).toNat

/-- The cartridge of an image (R1330, R1331). A trainer is placed nowhere (D67). -/
def Image.cartridge (m : Image) : Cartridge :=
  { prgPages := (m.byte 4).toNat, chrPages := (m.byte 5).toNat, mirrorV := (m.byte 6).getLsbD 0
    fourScreen := (m.byte 6).getLsbD 3, hasSram := (m.byte 6).getLsbD 1, prg := m.prg, chr := m.chr }

/-- The power-on registers of the shift-register variant (R1340). -/
def Mmc1.powerOn : Mmc1 := { shift := 0, count := 0, control := 0x0C, chr0 := 0, chr1 := 0, prg := 0 }

/-- The variant of a mapper number, with its power-on registers (R1332, R1340). -/
def variantOf (n : Nat) : Option MapperRegs :=
  if n = 0 then some .fixedBank
  else if n = 1 then some (.shiftReg Mmc1.powerOn)
  else if n = 2 then some (.prgBankSelect 0)
  else if n = 3 then some (.chrBankSelect 0)
  else none

/-- The image's arrays lie within the sizes its header gives (R1330): a listed byte beyond them would be no byte
of the image. -/
abbrev Image.sized (m : Image) : Prop :=
  m.header.length = 16 ∧ m.prg.wf ∧ m.chr.wf ∧ m.prg.within (16384 * (m.byte 4).toNat) ∧
    m.chr.within (8192 * (m.byte 5).toNat)

/-- What loading finds: the variant, or why the image is refused (R802, R1332). The spec gives the checks no order: that
an image with several failures reports the first of magic, PRG pages, mapper number is a DESIGN CHOICE (log 26). -/
def Image.variant (m : Image) : Except LoadError MapperRegs :=
  if m.header.take 4 ≠ [0x4E, 0x45, 0x53, 0x1A] then .error .badMagic
  else if m.byte 4 = 0 then .error .noPrg
  else match variantOf m.mapperNumber with
    | some r => .ok r
    | none => .error (.unsupportedMapper m.mapperNumber)

/-- The cartridge at power-on (R902 step 1, R1340): with no CHR page the image has no CHR array, and the 8 KB of CHR
RAM hold the draws of the state given as argument. -/
def powerOnCart (c : Cartridge) (draw : State) : Cartridge :=
  if c.chrPages = 0 then { c with chr := draw.cart.chr } else c

/-- The values R75 fixes at power-on, over a state whose other fields are the draws (R902): RAM, SRAM, the PPU's
memories and CHR RAM are those of `draw`. -/
def powerOnState (c : Cartridge) (r : MapperRegs) (draw : State) : State :=
  { draw with
    pending := none, remaining := 0, clock := 0, cost := 0, diag := []
    ppu := { draw.ppu with sprOverflow := false, ntmap := ntmapOf (headerMirroring c) }
    apu := { draw.apu with
      queue := [], cursor := 0, sound := [], noise := { draw.apu.noise with lfsr := 1 } }
    pads := Pads.reset
    frame := { draw.frame with line := 0, count := 0, stop := false, phase := .lineStart }
    cart := powerOnCart c draw
    mapper := { regs := r, win := recompute c r } }

/-- Power-on with an image: its state, after `reset()`, or no machine at all (R802, R902, D65). -/
def powerOn (m : Image) (draw : State) : Except LoadError State :=
  match m.variant with
  | .error e => .error e
  | .ok r => .ok (hostReset (powerOnState m.cartridge r draw))

end Sys2Proof.Machine
end

