-- ==== Sys2Proof/Safety.lean ====
section
/-!
DEFINITION. The terms claims are stated in: the invariants of the machine, the launch premises of
70_reset_and_hazards.md R960, and the relation "differ only in the stored B flag" of 10_state.md R59.
-/

namespace Sys2Proof.Machine

/-- Every store is in canonical form. -/
abbrev State.canonical (s : State) : Prop :=
  s.ram.wf ∧ s.sram.wf ∧ s.ppu.nt.wf ∧ s.ppu.pal.wf ∧ s.ppu.oam.wf ∧ s.frame.fb.wf ∧ s.frame.display.wf ∧
    s.cart.prg.wf ∧ s.cart.chr.wf

/-- Every listed index lies in its memory: 2 KB RAM, 8 KB SRAM, four 1 KB nametables, 32 palette bytes, 256
OAM bytes, the 256 x 240 framebuffer, the CHR array (R65-R67, R72, R1330). -/
abbrev State.withinSizes (s : State) : Prop :=
  s.ram.within 0x800 ∧ s.sram.within 0x2000 ∧ s.ppu.nt.within 0x1000 ∧ s.ppu.pal.within 32 ∧
    s.ppu.oam.within 256 ∧ s.frame.fb.within (256 * 240) ∧ s.frame.display.within (256 * 240) ∧
    s.cart.chr.within (chrSize s.cart)

/-- The window table is the one its bank registers give (R1302). -/
abbrev State.windowsDerived (s : State) : Prop := s.mapper.win = recompute s.cart s.mapper.regs

/-- The shift-register variant has taken at most four bits (R73). -/
abbrev MapperRegs.countOk : MapperRegs → Prop
  | .shiftReg r => r.count ≤ 4
  | _ => True

/-- The counters the spec bounds: the scanline 0..261, the pad indices 0..8, the serial count 0..4 (R71-R73). -/
abbrev State.countersOk (s : State) : Prop :=
  s.frame.line ≤ 261 ∧ s.pads.idx0 ≤ 8 ∧ s.pads.idx1 ≤ 8 ∧ s.mapper.regs.countOk

/-- The deferred queue: timestamps do not decrease, and none is later than `clock` (R1101). -/
abbrev State.queueOrdered (s : State) : Prop :=
  s.apu.queue.Pairwise (fun w v => w.ts ≤ v.ts) ∧ ∀ w ∈ s.apu.queue, w.ts ≤ s.clock

/-- The stores and the mapper are in order, and `sprOverflow` is 0 (R1045). -/
abbrev State.wellStored (s : State) : Prop :=
  s.canonical ∧ s.withinSizes ∧ s.windowsDerived ∧ s.countersOk ∧ s.ppu.sprOverflow = false

/-- The invariant of the machine. -/
abbrev State.Inv (s : State) : Prop := s.wellStored ∧ s.queueOrdered

/-- The states differ at most in the stored B flag (R59). -/
def sameButB (s t : State) : Prop := t = { s with flags := { s.flags with b := t.flags.b } }

/-! ### Launch premises (R960; log 25) -/

/-- *loaded*: an image with the magic, a supported mapper number and the PRG and CHR sizes its header gives. An
image with no PRG page is refused as well (R1332). -/
abbrev Image.loaded (m : Image) : Prop := m.sized ∧ m.variant.toOption.isSome = true

/-- *fresh*, in the parts that are not draws: PC the reset vector, S = 0xFF, I = 1, nothing pending,
`remaining`, `clock` and the log empty. -/
abbrev State.fresh (s : State) : Prop :=
  s.pc = word16 (prgRead 0xFFFD s) (prgRead 0xFFFC s) ∧ s.sp = 0xFF ∧ s.flags.i = true ∧ s.pending = none ∧
    s.remaining = 0 ∧ s.clock = 0 ∧ s.diag = []

/-- The state `k` steps on. -/
def State.stepsOn : Nat → State → State
  | 0, s => s
  | k + 1, s =>
    match step s with
    | .next t => State.stepsOn k t
    | .fault _ => s
    | .refused _ => s

/-- *no diagnostic*, of the state at the end: no unknown opcode has been executed. -/
abbrev State.noDiagnostic (s : State) : Prop := s.diag = []

/-- What the next step fetches and the state it then executes in, where the next step is an iteration. -/
def State.upcoming (s : State) : Option (Instr × State) :=
  if s.frame.phase = .running ∧ 0 < s.remaining then some (fetchInstr (beginIteration s)) else none

/-- ADC and SBC. -/
def isAddSub : Instr → Bool
  | .adc _ | .sbc _ => true
  | _ => false

/-- D is 0 if the next step executes an ADC or SBC. -/
def State.dClearNow (s : State) : Bool :=
  match s.upcoming with
  | some (i, t) => !(isAddSub i && t.flags.d)
  | none => true

/-- *D clear at arithmetic*, over a run of `n` steps: D = 0 at every ADC and SBC. -/
abbrev State.dClear (n : Nat) (s : State) : Prop := ∀ k < n, (s.stepsOn k).dClearNow = true

/-- No IRQ source is enabled: the DMC's IRQ enable is 0, bits 7 and 6 of the applied $4017 value are not both 0
(R1252), and no write still in the queue changes either. -/
abbrev State.noIrqSource (s : State) : Prop :=
  s.apu.dmc.irqEnable = false ∧ 64 ≤ s.apu.frameLatch.toNat ∧
    ∀ w ∈ s.apu.queue, (w.addr = 0x4010 → w.val.getLsbD 7 = false) ∧ (w.addr = 0x4017 → 64 ≤ w.val.toNat)

/-- *quiet* in one state: PPUCTRL bit 7 is 0, and I is 1 or no IRQ source is enabled. -/
abbrev State.quietNow (s : State) : Prop := s.ppu.ctrl.getLsbD 7 = false ∧ (s.flags.i = true ∨ s.noIrqSource)

/-- *quiet*, over a run of `n` steps. -/
abbrev State.quiet (n : Nat) (s : State) : Prop := ∀ k ≤ n, (s.stepsOn k).quietNow

end Sys2Proof.Machine
end

