-- ==== Sys2Proof/Certificates/Slice0/Obligations.lean ====
section
/-!
DEFINITION. The statements for the provers, each a `def Obligations.<Name> : Prop`, and before them the vocabulary
they share: the effects the spec's rules give, written in numbers where the model works on bits, so that a
statement compares two accounts of a rule. All of `Sys2Proof.Spec` is vocabulary; nothing in it is used by the model.
-/

namespace Sys2Proof.Spec

open Sys2Proof.Machine

/-! ### Effective addresses (30_encoding.md R211-R219) -/

/-- The byte of RAM at `k`, as a number. -/
def ramNat (s : State) (k : Nat) : Nat := (s.ram.read k).toNat

/-- The little-endian word at `p` in page 0; its second byte wraps within page 0 (R218, R219). -/
def zpWord (s : State) (p : Nat) : Nat := ramNat s p + 256 * ramNat s ((p + 1) % 256)

/-- `EA(mode)` as a number (R211-R216, R218, R219). -/
def ea (m : Mode) (s : State) : Nat :=
  match m with
  | .zp z => z.toNat
  | .zpX z => (z.toNat + s.x.toNat) % 256
  | .zpY z => (z.toNat + s.y.toNat) % 256
  | .abs a => a.toNat
  | .absX a => (a.toNat + s.x.toNat) % 65536
  | .absY a => (a.toNat + s.y.toNat) % 65536
  | .indX z => zpWord s ((z.toNat + s.x.toNat) % 256)
  | .indY z => (zpWord s z.toNat + s.y.toNat) % 65536

/-- `crossed`: the 16-bit sum of an indexed mode leaves the page of its base (R215, R216, R219). -/
def crosses (m : Mode) (s : State) : Bool :=
  match m with
  | .absX a => a.toNat / 256 != ea m s / 256
  | .absY a => a.toNat / 256 != ea m s / 256
  | .indY z => zpWord s z.toNat / 256 != ea m s / 256
  | _ => false

/-- The effective address as a bus address. -/
def eaAddr (m : Mode) (s : State) : Addr := BitVec.ofNat 16 (ea m s)

/-- `Operand(mode)` of a read instruction (R300, R223): the immediate byte, or one bus read of the effective address,
after the page-cross penalty of R921. -/
def operand (o : ReadOperand) (s : State) : Byte × State :=
  match o with
  | .imm b => (b, s)
  | .mem m =>
    busRead (eaAddr m s)
      { s with cost := s.cost + if s.params.penalties = .nmos ∧ crosses m s = true then 1 else 0 }

/-! ### Flags and status -/

/-- `SetNZ(r)` (R10). -/
def nz (r : Byte) (f : Flags) : Flags := { f with z := decide (r.toNat = 0), n := decide (128 ≤ r.toNat) }

/-- `PackP(b)` as a number (R10, R54). -/
def status (b : Bool) (f : Flags) : Nat :=
  128 * f.n.toNat + 64 * f.v.toNat + 32 + 16 * b.toNat + 8 * f.d.toNat + 4 * f.i.toNat + 2 * f.z.toNat + f.c.toNat

/-- Bit `k` of a byte, by division. -/
def bitOf (p : Byte) (k : Nat) : Bool := decide (p.toNat / 2 ^ k % 2 = 1)

/-- `UnpackP(p)` (R10). -/
def unpacked (p : Byte) : Flags :=
  { n := bitOf p 7, v := bitOf p 6, b := bitOf p 4, d := bitOf p 3, i := bitOf p 2, z := bitOf p 1, c := bitOf p 0 }

/-! ### The stack (R51) -/

/-- The RAM index of the stack byte `k` places above S, modulo 256 in page 1. -/
def slot (s : State) (k : Nat) : Nat := 256 + (s.sp.toNat + k) % 256

/-- The byte `k` places above S. -/
def pulled (s : State) (k : Nat) : Byte := s.ram.read (slot s k)

/-- The high byte of a 16-bit number. -/
def hi (w : Nat) : Byte := BitVec.ofNat 8 (w / 256)

/-- The low byte of a 16-bit number. -/
def lo (w : Nat) : Byte := BitVec.ofNat 8 w

/-- The 16-bit value with high byte `h` and low byte `l` (R7, R100). -/
def word (h l : Byte) : Addr := BitVec.ofNat 16 (256 * h.toNat + l.toNat)

/-! ### Effects of the instructions on a state whose PC is already the address after the instruction -/

/-- A read instruction that writes A: `g` gives the new A and the flags from A, the operand and the flags. -/
def onA (g : Byte → Byte → Flags → Byte × Flags) (o : ReadOperand) (s : State) : State :=
  let m := (operand o s).1
  let t := (operand o s).2
  { t with a := (g s.a m s.flags).1, flags := (g s.a m s.flags).2 }

/-- A read instruction that loads X. -/
def intoX (o : ReadOperand) (s : State) : State :=
  { (operand o s).2 with x := (operand o s).1, flags := nz (operand o s).1 s.flags }

/-- A read instruction that loads Y. -/
def intoY (o : ReadOperand) (s : State) : State :=
  { (operand o s).2 with y := (operand o s).1, flags := nz (operand o s).1 s.flags }

/-- A read instruction that writes flags only. -/
def onFlags (g : Byte → Flags → Flags) (o : ReadOperand) (s : State) : State :=
  { (operand o s).2 with flags := g (operand o s).1 s.flags }

/-- A read-modify-write of memory: one read and one write of the effective address. -/
def onMemory (g : Byte → Flags → Byte × Flags) (m : Mode) (s : State) : State :=
  let r := g (busRead (eaAddr m s) s).1 s.flags
  { busWrite (eaAddr m s) r.1 (busRead (eaAddr m s) s).2 with flags := r.2 }

/-- ADC in unbounded and in signed arithmetic (R401). -/
def add (a m : Byte) (f : Flags) : Byte × Flags :=
  let sum := a.toNat + m.toNat + f.c.toNat
  let signed := a.toInt + m.toInt + f.c.toNat
  (BitVec.ofNat 8 sum,
    nz (BitVec.ofNat 8 sum) { f with c := decide (256 ≤ sum), v := decide (signed < -128 ∨ 127 < signed) })

/-- SBC as a subtraction, `A - M - (1 - C)` (R402). -/
def subtract (a m : Byte) (f : Flags) : Byte × Flags :=
  let borrow : Nat := 1 - f.c.toNat
  let signed := a.toInt - m.toInt - borrow
  let r := BitVec.ofInt 8 ((a.toNat : Int) - m.toNat - borrow)
  (r, nz r { f with c := decide (m.toNat + borrow ≤ a.toNat), v := decide (signed < -128 ∨ 127 < signed) })

/-- CMP, CPX, CPY of the register value `r` (R406). -/
def compared (r m : Byte) (f : Flags) : Flags :=
  { f with
    c := decide (m.toNat ≤ r.toNat), z := decide (r.toNat = m.toNat)
    n := decide (128 ≤ (r.toNat + 256 - m.toNat) % 256) }

/-- BIT (R409). -/
def tested (a m : Byte) (f : Flags) : Flags :=
  { f with z := decide ((a &&& m).toNat = 0), n := bitOf m 7, v := bitOf m 6 }

/-- `+ 1` or `- 1` modulo 256, with N and Z (R410-R415). -/
def stepped (d : Nat) (v : Byte) (f : Flags) : Byte × Flags :=
  (BitVec.ofNat 8 (v.toNat + d), nz (BitVec.ofNat 8 (v.toNat + d)) f)

/-- ASL (R501). -/
def shiftedLeft (v : Byte) (f : Flags) : Byte × Flags :=
  let r := BitVec.ofNat 8 (2 * v.toNat)
  (r, nz r { f with c := decide (128 ≤ v.toNat) })

/-- LSR (R502). -/
def shiftedRight (v : Byte) (f : Flags) : Byte × Flags :=
  let r := BitVec.ofNat 8 (v.toNat / 2)
  (r, nz r { f with c := decide (v.toNat % 2 = 1) })

/-- ROL (R503). -/
def rotatedLeft (v : Byte) (f : Flags) : Byte × Flags :=
  let r := BitVec.ofNat 8 (2 * v.toNat + f.c.toNat)
  (r, nz r { f with c := decide (128 ≤ v.toNat) })

/-- ROR (R504). -/
def rotatedRight (v : Byte) (f : Flags) : Byte × Flags :=
  let r := BitVec.ofNat 8 (128 * f.c.toNat + v.toNat / 2)
  (r, nz r { f with c := decide (v.toNat % 2 = 1) })

/-- A branch with condition `cond` (R600, R220, R921): `PC + sext_16(off)` modulo 0x10000. -/
def branched (cond : Bool) (off : Byte) (s : State) : State :=
  if cond then
    let target := BitVec.ofInt 16 ((s.pc.toNat : Int) + off.toInt)
    let penalty := if s.pc.toNat / 256 = target.toNat / 256 then 1 else 2
    { s with pc := target, cost := s.cost + if s.params.penalties = .nmos then penalty else 0 }
  else s

/-- The word at a vector, read through the mapper (R106, R820). -/
def vectorWord (a : Addr) (s : State) : Addr := word (prgRead (a + 1) s) (prgRead a s)

/-- `TakeInterrupt(kind)` (R820): `b` the pushed bit 4 and the new B, `vector` the vector's address. -/
def entered (b : Bool) (vector : Addr) (s : State) : State :=
  { s with
    ram := ((s.ram.write (slot s 0) (hi s.pc.toNat)).write (slot s 255) (lo s.pc.toNat)).write (slot s 254)
      (BitVec.ofNat 8 (status b s.flags))
    sp := BitVec.ofNat 8 (s.sp.toNat + 253)
    flags := { s.flags with i := true, b := b }
    pc := vectorWord vector s }

/-! ### Bytes and costs of the encodings (30_encoding.md R202, R250) -/

/-- A two-byte instruction. -/
def two (op : Nat) (b : Byte) : List Byte := [BitVec.ofNat 8 op, b]

/-- A three-byte instruction: the address's low byte first. -/
def three (op : Nat) (a : Addr) : List Byte := [BitVec.ofNat 8 op, lo a.toNat, hi a.toNat]

/-- The encodings and base costs of LDA, ADC, SBC, AND, ORA, EOR and CMP, whose opcodes differ by a base value
(R301, R401-R406). -/
def loadRow (base : Nat) : LoadForm → List Byte × Nat
  | .imm b => (two (base + 0x09) b, 2)
  | .zp z => (two (base + 0x05) z, 3)
  | .zpX z => (two (base + 0x15) z, 4)
  | .abs a => (three (base + 0x0D) a, 4)
  | .absX a => (three (base + 0x1D) a, 4)
  | .absY a => (three (base + 0x19) a, 4)
  | .indX z => (two (base + 0x01) z, 6)
  | .indY z => (two (base + 0x11) z, 5)

/-- LDX (R302). -/
def ldxRow : LdxForm → List Byte × Nat
  | .imm b => (two 0xA2 b, 2)
  | .zp z => (two 0xA6 z, 3)
  | .zpY z => (two 0xB6 z, 4)
  | .abs a => (three 0xAE a, 4)
  | .absY a => (three 0xBE a, 4)

/-- LDY (R303). -/
def ldyRow : LdyForm → List Byte × Nat
  | .imm b => (two 0xA0 b, 2)
  | .zp z => (two 0xA4 z, 3)
  | .zpX z => (two 0xB4 z, 4)
  | .abs a => (three 0xAC a, 4)
  | .absX a => (three 0xBC a, 4)

/-- CPX and CPY (R407, R408). -/
def cpRow (base : Nat) : CpForm → List Byte × Nat
  | .imm b => (two base b, 2)
  | .zp z => (two (base + 4) z, 3)
  | .abs a => (three (base + 0x0C) a, 4)

/-- BIT (R409). -/
def bitRow : BitForm → List Byte × Nat
  | .zp z => (two 0x24 z, 3)
  | .abs a => (three 0x2C a, 4)

/-- STA (R304). -/
def staRow : StaForm → List Byte × Nat
  | .zp z => (two 0x85 z, 3)
  | .zpX z => (two 0x95 z, 4)
  | .abs a => (three 0x8D a, 4)
  | .absX a => (three 0x9D a, 5)
  | .absY a => (three 0x99 a, 5)
  | .indX z => (two 0x81 z, 6)
  | .indY z => (two 0x91 z, 6)

/-- STX (R305). -/
def stxRow : StxForm → List Byte × Nat
  | .zp z => (two 0x86 z, 3)
  | .zpY z => (two 0x96 z, 4)
  | .abs a => (three 0x8E a, 4)

/-- STY (R306). -/
def styRow : StyForm → List Byte × Nat
  | .zp z => (two 0x84 z, 3)
  | .zpX z => (two 0x94 z, 4)
  | .abs a => (three 0x8C a, 4)

/-- ASL, LSR, ROL and ROR (R501-R504). -/
def shiftRow (base : Nat) : ShiftForm → List Byte × Nat
  | .acc => ([BitVec.ofNat 8 (base + 0x0A)], 2)
  | .zp z => (two (base + 0x06) z, 5)
  | .zpX z => (two (base + 0x16) z, 6)
  | .abs a => (three (base + 0x0E) a, 6)
  | .absX a => (three (base + 0x1E) a, 7)

/-- INC and DEC (R410, R411). -/
def incRow (base : Nat) : IncForm → List Byte × Nat
  | .zp z => (two (base + 0x06) z, 5)
  | .zpX z => (two (base + 0x16) z, 6)
  | .abs a => (three (base + 0x0E) a, 6)
  | .absX a => (three (base + 0x1E) a, 7)

/-! ### A step that runs one instruction (70_reset_and_hazards.md R903, R905) -/

/-- The bytes lie from address `a` on, in memory whose reads have no effect (`peek`). -/
def bytesAt (a : Addr) (bytes : List Byte) (s : State) : Prop :=
  ∀ k (h : k < bytes.length), peek (a + BitVec.ofNat 16 k) s = some bytes[k]

/-- The frame driver is inside a `run` call with cycles left, nothing is pending, and PC is at these bytes. -/
def aboutToRun (bytes : List Byte) (s : State) : Prop :=
  s.frame.phase = .running ∧ 0 < s.remaining ∧ s.pending = none ∧ bytesAt s.pc bytes s

/-- The end of an iteration: `remaining` and `clock` move by what it was charged. -/
def charged (t : State) : State :=
  { t with remaining := t.remaining - t.cost, clock := t.clock + t.cost, cost := 0 }

/-- The step that finds `row`'s bytes at PC has the effect `f`: PC moved past the bytes and the base cost charged
before `f`, `remaining` and `clock` moved after it. -/
def stepsBy (row : List Byte × Nat) (f : State → State) : Prop :=
  ∀ s : State, aboutToRun row.1 s →
    step s = .next (charged (f { s with pc := s.pc + BitVec.ofNat 16 row.1.length, cost := row.2 }))

/-- What an instruction does: `exec` answers the next state `f s` for EVERY state `s` (no hypothesis), and a step that
finds the instruction's bytes at PC has that effect. -/
def completesAs (i : Instr) (row : List Byte × Nat) (f : State → State) : Prop :=
  (∀ s : State, exec i s = .next (f s)) ∧ stepsBy row f

/-! ### What each instruction writes (10_state.md R50, R51, R55-R60; 30_encoding.md R223) -/

/-- Does a shift act on A? -/
def onAccumulator : ShiftForm → Bool
  | .acc => true
  | _ => false

/-- The instructions that write A (R50). -/
def writesA : Instr → Bool
  | .lda _ | .pla | .txa | .tya | .adc _ | .sbc _ | .and _ | .ora _ | .eor _ => true
  | .asl o | .lsr o | .rol o | .ror o => onAccumulator o
  | _ => false

/-- The instructions that write X (R50). -/
def writesX : Instr → Bool
  | .ldx _ | .tax | .tsx | .inx | .dex => true
  | _ => false

/-- The instructions that write Y (R50). -/
def writesY : Instr → Bool
  | .ldy _ | .tay | .iny | .dey => true
  | _ => false

/-- The instructions that write S (R51). -/
def writesS : Instr → Bool
  | .txs | .pha | .php | .pla | .plp | .jsr _ | .rts | .brk _ | .rti => true
  | _ => false

/-- The instructions that write C (R55). -/
def writesC : Instr → Bool
  | .adc _ | .sbc _ | .cmp _ | .cpx _ | .cpy _ | .asl _ | .lsr _ | .rol _ | .ror _ => true
  | .clc | .sec | .plp | .rti => true
  | _ => false

/-- The instructions that write Z and N (R56). -/
def writesNZ : Instr → Bool
  | .lda _ | .ldx _ | .ldy _ | .tax | .tay | .txa | .tya | .tsx | .pla => true
  | .adc _ | .sbc _ | .and _ | .ora _ | .eor _ | .cmp _ | .cpx _ | .cpy _ | .bit _ => true
  | .inc _ | .dec _ | .inx | .iny | .dex | .dey | .asl _ | .lsr _ | .rol _ | .ror _ => true
  | .plp | .rti => true
  | _ => false

/-- The instructions that write I (R57). -/
def writesI : Instr → Bool
  | .sei | .cli | .plp | .rti | .brk _ => true
  | _ => false

/-- The instructions that write D (R58). -/
def writesD : Instr → Bool
  | .sed | .cld | .plp | .rti => true
  | _ => false

/-- The instructions that write V (R60). -/
def writesV : Instr → Bool
  | .adc _ | .sbc _ | .bit _ | .clv | .plp | .rti => true
  | _ => false

/-- The instructions that write B (R59). -/
def writesB : Instr → Bool
  | .plp | .rti | .brk _ => true
  | _ => false

/-- The memory mode of a shift. -/
def shiftMode : ShiftForm → Option Mode
  | .acc => none
  | .zp z => some (.zp z)
  | .zpX z => some (.zpX z)
  | .abs a => some (.abs a)
  | .absX a => some (.absX a)

/-- The addresses an instruction stores to: the effective address of a write or read-modify-write (R223), the stack
bytes of a push (R51). -/
def storesTo (i : Instr) (s : State) : List Nat :=
  match i with
  | .sta o => [ea (staMode o) s]
  | .stx o => [ea (stxMode o) s]
  | .sty o => [ea (styMode o) s]
  | .inc o | .dec o => [ea (incMode o) s]
  | .asl o | .lsr o | .rol o | .ror o => ((shiftMode o).map (fun m => ea m s)).toList
  | .pha | .php => [slot s 0]
  | .jsr _ => [slot s 0, slot s 255]
  | .brk _ => [slot s 0, slot s 255, slot s 254]
  | _ => []

/-- Two bus addresses name one byte: the same address, or two mirrors of one RAM byte (R113). -/
def sameByte (a b : Nat) : Prop := a = b ∨ (a < 0x2000 ∧ b < 0x2000 ∧ a % 0x800 = b % 0x800)

/-! ### PPU (80_ppu.md) -/

/-- Coarse X of v or t (R68). -/
def coarseX (v : BitVec 15) : Nat := v.toNat % 32

/-- Coarse Y of v or t (R68). -/
def coarseY (v : BitVec 15) : Nat := v.toNat / 32 % 32

/-- The nametable select of v or t (R68). -/
def ntSelect (v : BitVec 15) : Nat := v.toNat / 1024 % 4

/-- Fine Y of v or t (R68). -/
def fineY (v : BitVec 15) : Nat := v.toNat / 4096

/-- The four fields packed (R68). -/
def packed (fy nt cy cx : Nat) : Nat := 4096 * fy + 1024 * nt + 32 * cy + cx

/-- Write PPU port 0x2000 + `p` through the bus. -/
def port (p : Nat) (d : Byte) (s : State) : State := busWrite (BitVec.ofNat 16 (0x2000 + p)) d s

/-- The logical tables a mode aliases (R1013's last column): `true` where tables `m` and `n` are one buffer. -/
def aliased : Mirroring → Nat → Nat → Bool
  | .horizontal, m, n => m / 2 == n / 2
  | .vertical, m, n => m % 2 == n % 2
  | .fourScreen, m, n => m == n
  | .singleScreen0, _, _ => true

/-- The physical buffers of logical tables 0 to 3 (R1013's second column). -/
def buffers : Mirroring → List Nat
  | .horizontal => [0, 0, 1, 1]
  | .vertical => [0, 1, 0, 1]
  | .fourScreen => [0, 1, 2, 3]
  | .singleScreen0 => [0, 0, 0, 0]

/-- The palette entry an address from 0x3F00 up names, by R1011's two mirrors. -/
def paletteEntry (a : Nat) : Nat := if a % 32 ∈ [16, 20, 24, 28] then a % 32 - 16 else a % 32

/-- v after `k` tiles (R1031). -/
def tiledV : Nat → BitVec 15 → BitVec 15
  | 0, v => v
  | k + 1, v => incCoarseX (tiledV k v)

/-- The byte at PPU address `a`, as a number. -/
def ppuNat (a : Nat) (s : State) : Nat := (ppuRead (BitVec.ofNat 14 a) s).toNat

/-- The colour index of pixel `p` (0 leftmost) of the pattern row at PPU address `a` (R1032): bit 7 - p of the low
plane, and of the high plane 8 bytes on. -/
def patternPixel (a p : Nat) (s : State) : Nat :=
  ppuNat a s / 2 ^ (7 - p) % 2 + 2 * (ppuNat (a + 8) s / 2 ^ (7 - p) % 2)

/-- The pattern row of the tile that `v` names (R1031): the tile number from the nametable, the table from PPUCTRL
bit 4, the row from fine Y. -/
def tileRow (v : BitVec 15) (s : State) : Nat :=
  4096 * (s.ppu.ctrl.getLsbD 4).toNat + 16 * ppuNat (0x2000 + v.toNat % 4096) s + fineY v

/-- The palette of the tile that `v` names (R1031): two bits of the attribute byte of its 4 x 4 block of tiles, by
the 2 x 2 block it lies in. -/
def tilePalette (v : BitVec 15) (s : State) : Nat :=
  ppuNat (0x23C0 + 1024 * ntSelect v + 8 * (coarseY v / 4) + coarseX v / 4) s /
    2 ^ (4 * (coarseY v / 2 % 2) + 2 * (coarseX v / 2 % 2)) % 4

/-- The background's colour index and palette at screen column `sx` (R1031): pixel `sx + x` of the line of tiles. -/
def backgroundAt (sx : Nat) (s : State) : Nat × Nat :=
  let at' := sx + s.ppu.x.toNat
  let v := tiledV (at' / 8) s.ppu.v
  (patternPixel (tileRow v s) (at' % 8) s, tilePalette v s)

/-- Byte `k` of OAM entry `i` (R1041), as a number. -/
def oamNat (i k : Nat) (s : State) : Nat := (s.ppu.oam.read (4 * i + k)).toNat

/-- The PPU address of row `r` (0 the top one shown) of OAM entry `i` (R1042): vertical flip over the whole height;
PPUCTRL bit 3 selects the table of 8 x 8 sprites, bit 0 of the tile number that of 8 x 16 sprites. -/
def spritePattern (i r : Nat) (s : State) : Nat :=
  let tile := oamNat i 1 s
  let flip := oamNat i 2 s / 128 % 2 = 1
  if s.ppu.ctrl.getLsbD 5 then
    let r := if flip then 15 - r else r
    4096 * (tile % 2) + 16 * (tile / 2 * 2 + r / 8) + r % 8
  else
    4096 * (s.ppu.ctrl.getLsbD 3).toNat + 16 * tile + (if flip then 7 - r else r)

/-- The colour index of OAM entry `i` at column `sx` of line `n` (R1040), 0 where it shows nothing there: the entry
covers 8 or 16 lines from Y + 1 on and 8 columns from X on. -/
def spriteColour (i n sx : Nat) (s : State) : Nat :=
  let top := oamNat i 0 s + 1
  let left := oamNat i 3 s
  if top ≤ n ∧ n < top + (if s.ppu.ctrl.getLsbD 5 then 16 else 8) ∧ left ≤ sx ∧ sx < left + 8 then
    patternPixel (spritePattern i (n - top) s)
      (if oamNat i 2 s / 64 % 2 = 1 then 7 - (sx - left) else sx - left) s
  else 0

/-- The first OAM entry with an opaque pixel at column `sx` of line `n` (R1040). -/
def firstSprite (n sx : Nat) (s : State) : Option Nat :=
  (List.range 64).find? (fun i => spriteColour i n sx s != 0)

/-- CopyX (R1035): coarse X and the horizontal nametable bit of t, the rest of v. -/
def copiedX (t v : BitVec 15) : BitVec 15 :=
  BitVec.ofNat 15 (packed (fineY v) (ntSelect v / 2 * 2 + ntSelect t % 2) (coarseY v) (coarseX t))

/-- Does OAM entry `i` lie behind the background (R1041)? -/
def behind (i : Nat) (s : State) : Bool := decide (oamNat i 2 s / 32 % 2 = 1)

/-- The palette byte of OAM entry `i` where its colour index is `c` (R1040). -/
def spriteByte (i c : Nat) (s : State) : Byte := s.ppu.pal.read (16 + 4 * (oamNat i 2 s % 4) + c)

/-- What R1030 leaves at column `sx` of line `n`: the backdrop, the background where PPUMASK bit 3 is 1 and the
sprites where bit 4 is 1, clipped as R1046 says. -/
def rowByte (n sx : Nat) (s : State) : Byte :=
  let bg := if s.ppu.mask.getLsbD 3 ∧ ¬ (sx < 8 ∧ s.ppu.mask.getLsbD 1 = false) then backgroundAt sx s else (0, 0)
  let below := if bg.1 = 0 then s.ppu.pal.read 0 else s.ppu.pal.read (4 * bg.2 + bg.1)
  if s.ppu.mask.getLsbD 4 ∧ ¬ (sx < 8 ∧ s.ppu.mask.getLsbD 2 = false) then
    match firstSprite n sx s with
    | none => below
    | some i => if behind i s ∧ bg.1 ≠ 0 then below else spriteByte i (spriteColour i n sx s) s
  else below

/-- Does sprite 0 have an opaque pixel on line `n` at a column up to 255 (R1044)? -/
def spriteZero (n : Nat) (s : State) : Bool := (List.range 256).any (fun sx => spriteColour 0 n sx s != 0)

/-- The nametable buffer that a PPU address selects (R1012). -/
def table (a : Nat) (m : NtMap) : Nat :=
  match a / 1024 % 4 with
  | 0 => m.n0.val
  | 1 => m.n1.val
  | 2 => m.n2.val
  | _ => m.n3.val

/-- The place in the CHR array of a PPU address below 0x2000 (R1303). -/
def chrPlace (a : Nat) (s : State) : Nat :=
  ((if a < 0x1000 then s.mapper.win.chr0 else s.mapper.win.chr1) + a % 0x1000) %
    (if s.cart.chrPages = 0 then 8192 else 8192 * s.cart.chrPages)

/-- `PpuRead` (R1010) by the address as a number. -/
def shown (a : Nat) (s : State) : Byte :=
  if a < 0x2000 then s.cart.chr.read (chrPlace a s)
  else if a < 0x3F00 then s.ppu.nt.read (1024 * table a s.ppu.ntmap + a % 1024)
  else s.ppu.pal.read (paletteEntry a)

/-- `PpuWrite` (R1010) by the address as a number; CHR takes a write only where it is CHR RAM (R1303). -/
def stored (a : Nat) (d : Byte) (s : State) : State :=
  if a < 0x2000 then
    if s.cart.chrPages = 0 then { s with cart := { s.cart with chr := s.cart.chr.write (chrPlace a s) d } } else s
  else if a < 0x3F00 then
    { s with ppu := { s.ppu with nt := s.ppu.nt.write (1024 * table a s.ppu.ntmap + a % 1024) d } }
  else { s with ppu := { s.ppu with pal := s.ppu.pal.write (paletteEntry a) d } }

/-- v after one $2007 access (R1023, R1024): 1 or 32 further, modulo 0x8000. -/
def steppedV (p : Ppu) : BitVec 15 := BitVec.ofNat 15 (p.v.toNat + (if p.ctrl.getLsbD 2 then 32 else 1))

/-! ### APU (81_apu.md) -/

/-- The length counter after a write of a channel's fourth register (R1106). -/
def loadedLength (enabled : Bool) (d l : Byte) : Byte :=
  if enabled then BitVec.ofNat 8 (lengthTable.getD (d.toNat / 8) 0) else l

/-- A timer period after a write of its low byte (R1113). -/
def lowPeriod (d : Byte) (p : BitVec 11) : BitVec 11 := BitVec.ofNat 11 (p.toNat / 256 * 256 + d.toNat)

/-- A timer period after a write of its high three bits (R1113). -/
def highPeriod (d : Byte) (p : BitVec 11) : BitVec 11 := BitVec.ofNat 11 (d.toNat % 8 * 256 + p.toNat % 256)

/-- A pulse channel after a write of its register `k` (R1110, R1112, R1113). -/
def pulseWritten (k : Nat) (d : Byte) (p : Pulse) : Pulse :=
  match k with
  | 0 =>
    { p with
      duty := BitVec.ofNat 2 (d.toNat / 64), halt := bitOf d 5, constant := bitOf d 4
      volume := BitVec.ofNat 4 d.toNat }
  | 1 =>
    { p with
      swEnable := bitOf d 7, swPeriod := BitVec.ofNat 3 (d.toNat / 16), swNegate := bitOf d 3
      swShift := BitVec.ofNat 3 d.toNat, swReload := true }
  | 2 => { p with period := lowPeriod d p.period }
  | _ =>
    { p with
      period := highPeriod d p.period, length := loadedLength p.enabled d p.length
      env := { p.env with start := true }, step := 0 }

/-- Is the write due at time `tk`, in units of 1/`rate` cycle (R1103; the unit is log 18)? -/
def due (rate tk : Nat) (w : DeferredWrite) : Bool := decide (w.ts * rate ≤ tk)

/-! ### Mapper (83_mapper.md) -/

/-- The byte of PRG bank `b` (16 KB) that the low 14 bits of a CPU address select. -/
def prgBank (b : Nat) (a : Addr) (s : State) : Byte := s.cart.prg.read (16384 * b + a.toNat % 16384)

/-- The five serial writes of R1325, least significant bit first, at addresses `a1` to `a5`. -/
def serial (a1 a2 a3 a4 a5 : Addr) (d1 d2 d3 d4 d5 : Byte) (s : State) : State :=
  busWrite a5 d5 (busWrite a4 d4 (busWrite a3 d3 (busWrite a2 d2 (busWrite a1 d1 s))))

/-- The value five serial writes shift in. -/
def serialValue (d1 d2 d3 d4 d5 : Byte) : Nat :=
  d1.toNat % 2 + 2 * (d2.toNat % 2) + 4 * (d3.toNat % 2) + 8 * (d4.toNat % 2) + 16 * (d5.toNat % 2)

/-- The register that the fifth serial write's address selects takes the value (R1325); a control write sets the
mirroring (R1326). -/
def dispatched (a : Addr) (n : Nat) (r : Mmc1) (s : State) : State :=
  if a.toNat < 0xA000 then
    setMapper (.shiftReg { r with control := BitVec.ofNat 5 n })
      (changeMirroring (if n % 4 = 2 then .vertical else if n % 4 = 3 then .horizontal else .singleScreen0) s)
  else if a.toNat < 0xC000 then setMapper (.shiftReg { r with chr0 := BitVec.ofNat 5 n }) s
  else if a.toNat < 0xE000 then setMapper (.shiftReg { r with chr1 := BitVec.ofNat 5 n }) s
  else setMapper (.shiftReg { r with prg := BitVec.ofNat 4 n }) s

end Sys2Proof.Spec

open Sys2Proof Sys2Proof.Machine

/-- For every well-formed instruction, with every operand at every value, and every list of bytes after it,
decode reads the encoded bytes as that instruction and hands back the rest of the list. (Derived from R200,
R202, R250.) -/
def Obligations.DecodeInvertsEncode : Prop :=
  ∀ (i : Instr) (rest : List Byte), i.wf = true → decode (encode i ++ rest) = .ok (i, rest)

/-- Whatever bytes decode accepts, the instruction it answers is well formed, and the bytes are exactly its
encoding followed by the rest; and decode refuses a list only when it has no byte or fewer bytes than the length
its first byte fixes. (Derived from R201, R231, R250.) -/
def Obligations.EncodeInvertsDecode : Prop :=
  (∀ (bs rest : List Byte) (i : Instr), decode bs = .ok (i, rest) → i.wf = true ∧ bs = encode i ++ rest) ∧
    decode [] = .error .noOpcode ∧
    ∀ (op : Byte) (bs : List Byte), (∃ e, decode (op :: bs) = .error e) ↔ bs.length + 1 < opLength op

/-- The bytes written out from the opcode map R250 and the layout R202 (LDA #$80, STX $02,Y, SBC ($44),Y, ROL
$1234,X, BVC $80F0+$20, JMP ($10FF), JSR $9000, PHP, BRK with padding 00) decode to those instructions, and the
unknown opcode 02 to ill. (Derived from R202, R250.) -/
def Obligations.SampleWordsDecode : Prop :=
  decode [0b10101001, 0b10000000] = .ok (.lda (.imm 0x80), []) ∧
    decode [0b10010110, 0b00000010] = .ok (.stx (.zpY 0x02), []) ∧
    decode [0b11110001, 0b01000100] = .ok (.sbc (.indY 0x44), []) ∧
    decode [0b00111110, 0b00110100, 0b00010010] = .ok (.rol (.absX 0x1234), []) ∧
    decode [0b01010000, 0b00100000] = .ok (.bvc 0x20, []) ∧
    decode [0b01101100, 0b11111111, 0b00010000] = .ok (.jmp (.ind 0x10FF), []) ∧
    decode [0b00100000, 0b00000000, 0b10010000] = .ok (.jsr 0x9000, []) ∧
    decode [0b00001000] = .ok (.php, []) ∧
    decode [0b00000000, 0b00000000] = .ok (.brk 0x00, []) ∧
    decode [0b00000010] = .ok (.ill 0x02, [])

/-- The 105 values of R230, and no others, decode to ill whatever bytes follow. ill answers a next state for
every state: the diagnostic log has one more entry, the opcode byte and PC - 1 modulo 0x10000, and nothing else
differs; and a step that finds one of them at PC moves PC by one and charges 2 cycles. (States R230, R715.) -/
def Obligations.UnknownOpcodesAreOneByteNoOps : Prop :=
  unknownOpcodes.length = 105 ∧ unknownOpcodes.Nodup ∧
    (∀ op lo hi : Byte, decodeOp op lo hi = .ill op ↔ op ∈ unknownOpcodes) ∧
    (∀ (op : Byte) (s : State), exec (.ill op) s = .next
      { s with diag := s.diag ++ [{ opcode := op, addr := BitVec.ofNat 16 (s.pc.toNat + 65535) }] }) ∧
    ∀ op ∈ unknownOpcodes, Spec.stepsBy ([op], 2) (fun s =>
      { s with diag := s.diag ++ [{ opcode := op, addr := BitVec.ofNat 16 (s.pc.toNat + 65535) }] })

/-- For every address and state: RAM at a & 0x07FF, the PPU port a & 7, the 0x4000-0x401F ports ($4015, $4016,
$4017, else a draw), 0 in the expansion range, SRAM at a - 0x6000 or a draw where it is absent, and PRG through
the mapper window. (States R110, R1201.) -/
def Obligations.BusReadsFollowTheMap : Prop :=
  ∀ (a : Addr) (s : State),
    (a ≤ 0x1FFF → busRead a s = (s.ram.read (a &&& 0x07FF).toNat, s)) ∧
    (0x2000 ≤ a → a ≤ 0x3FFF → busRead a s = ppuPortRead (a &&& 7).toNat s) ∧
    (a = 0x4015 → busRead a s = (s.apu.status, s)) ∧
    (a = 0x4016 → busRead a s = padRead0 s) ∧
    (a = 0x4017 → busRead a s = padRead1 s) ∧
    (0x4000 ≤ a → a ≤ 0x401F → a ≠ 0x4015 → a ≠ 0x4016 → a ≠ 0x4017 → busRead a s = drawByte s) ∧
    (0x4020 ≤ a → a ≤ 0x5FFF → busRead a s = (0x00, s)) ∧
    (0x6000 ≤ a → a ≤ 0x7FFF → s.cart.hasSram = true → busRead a s = (s.sram.read (a - 0x6000).toNat, s)) ∧
    (0x6000 ≤ a → a ≤ 0x7FFF → s.cart.hasSram = false → busRead a s = drawByte s) ∧
    (0x8000 ≤ a → busRead a s = (s.cart.prg.read
      (((if a &&& 0x4000 = 0 then s.mapper.win.prg0 else s.mapper.win.prg1) + (a &&& 0x3FFF).toNat) %
        (16384 * s.cart.prgPages)), s))

/-- For every address, value and state: RAM at a & 0x07FF, the PPU port a & 7, the APU queue for $4000-$4013,
$4015 and $4017, OAM DMA for $4014, the pad strobe for $4016, nothing for $4018-$401F and the expansion range,
SRAM where present and nothing where absent, a mapper register write from 0x8000 up; and no write changes a PRG
byte. (States R111, R1202.) -/
def Obligations.BusWritesFollowTheMap : Prop :=
  ∀ (a : Addr) (v : Byte) (s : State),
    (a ≤ 0x1FFF → busWrite a v s = { s with ram := s.ram.write (a &&& 0x07FF).toNat v }) ∧
    (0x2000 ≤ a → a ≤ 0x3FFF → busWrite a v s = ppuPortWrite (a &&& 7).toNat v s) ∧
    ((0x4000 ≤ a ∧ a ≤ 0x4013) ∨ a = 0x4015 ∨ a = 0x4017 → busWrite a v s = apuEnqueue a v s) ∧
    (a = 0x4014 → busWrite a v s = oamDma v s) ∧
    (a = 0x4016 → busWrite a v s = { s with pads := padStrobe v s.pads }) ∧
    (0x4018 ≤ a → a ≤ 0x5FFF → busWrite a v s = s) ∧
    (0x6000 ≤ a → a ≤ 0x7FFF → s.cart.hasSram = true →
      busWrite a v s = { s with sram := s.sram.write (a - 0x6000).toNat v }) ∧
    (0x6000 ≤ a → a ≤ 0x7FFF → s.cart.hasSram = false → busWrite a v s = s) ∧
    (0x8000 ≤ a → busWrite a v s = mapperWrite a v s) ∧
    (busWrite a v s).cart.prg = s.cart.prg

/-- A read of plain memory (RAM, the expansion range, present SRAM, PRG) has no effect and gives the byte peek
shows. A read of any address leaves every byte that peek shows, the CPU registers and flags, the pending slot,
the counters, the log, every memory, the APU, the frame driver, the mapper, the cartridge and the parameters as
they were. (Derived from R103, R110.) -/
def Obligations.BusReadsChangeOnlyDeviceState : Prop :=
  ∀ (a : Addr) (s : State),
    (∀ b, peek a s = some b → busRead a s = (b, s)) ∧ (∀ b : Addr, peek b (busRead a s).2 = peek b s) ∧
    ∃ v w rdbuf vblank idx0 idx1 draws, (busRead a s).2 =
      { s with
        ppu := { s.ppu with v := v, w := w, rdbuf := rdbuf, vblank := vblank }
        pads := { s.pads with idx0 := idx0, idx1 := idx1 }
        draws := draws }

/-- A write through any of a, a + 0x800, a + 0x1000 and a + 0x1800 (a < 0x800) is read back through all four; a
read or write of an address in 0x2000-0x3FFF is that of port 0x2000 + (address & 7). (States R113.) -/
def Obligations.RamMirrorsAliasOneByte : Prop :=
  (∀ (a i j : Nat) (v : Byte) (s : State), a < 0x800 → i < 4 → j < 4 →
      (busRead (BitVec.ofNat 16 (a + 0x800 * j)) (busWrite (BitVec.ofNat 16 (a + 0x800 * i)) v s)).1 = v) ∧
    ∀ (a : Addr) (v : Byte) (s : State), 0x2000 ≤ a → a ≤ 0x3FFF →
      busWrite a v s = busWrite (0x2000 + (a &&& 7)) v s ∧ busRead a s = busRead (0x2000 + (a &&& 7)) s

/-- After a write to RAM, or to 0x6000-0x7FFF with SRAM present, a read of that address gives the written byte,
and every plain-memory address that is not a mirror of it reads as before. (Derived from R150, R103.) -/
def Obligations.StoredByteIsReadBack : Prop :=
  ∀ (a : Addr) (v : Byte) (s : State),
    a.toNat < 0x2000 ∨ (0x6000 ≤ a.toNat ∧ a.toNat < 0x8000 ∧ s.cart.hasSram = true) →
    busRead a (busWrite a v s) = (v, busWrite a v s) ∧
    ∀ b : Addr, ¬ Spec.sameByte a.toNat b.toNat → peek b (busWrite a v s) = peek b s

/-- For every form, in every state: the register takes the immediate byte or the byte of one bus read at the
effective address (page wraps of R211-R219 in numbers; a page-cross penalty under nmos), Z and N follow from it,
and everything else is as the read leaves it. A step that finds the encoding at PC does this, with PC past it
and the base cycles charged. (States R301, R302, R303.) -/
def Obligations.LoadsFollowTheRules : Prop :=
  (∀ o, Spec.completesAs (.lda o) (Spec.loadRow 0xA0 o) (Spec.onA (fun _ m f => (m, Spec.nz m f)) (loadOperand o))) ∧
    (∀ o, Spec.completesAs (.ldx o) (Spec.ldxRow o) (Spec.intoX (ldxOperand o))) ∧
    (∀ o, Spec.completesAs (.ldy o) (Spec.ldyRow o) (Spec.intoY (ldyOperand o)))

/-- For every form, in every state: exactly one bus write of the register at the effective address (in numbers),
no read of it, no flag, no page-cross penalty. A step that finds the encoding at PC does this, with PC past it
and the base cycles charged. (States R304, R305, R306.) -/
def Obligations.StoresFollowTheRules : Prop :=
  (∀ o, Spec.completesAs (.sta o) (Spec.staRow o) (fun s => busWrite (Spec.eaAddr (staMode o) s) s.a s)) ∧
    (∀ o, Spec.completesAs (.stx o) (Spec.stxRow o) (fun s => busWrite (Spec.eaAddr (stxMode o) s) s.x s)) ∧
    (∀ o, Spec.completesAs (.sty o) (Spec.styRow o) (fun s => busWrite (Spec.eaAddr (styMode o) s) s.y s))

/-- TAX, TAY, TXA, TYA and TSX copy the source and set Z and N from it; TXS copies X to S and writes no flag.
Nothing else changes. A step that finds the opcode at PC does this, with PC past it and 2 cycles charged.
(States R307, R308, R309, R310, R311, R312.) -/
def Obligations.TransfersFollowTheRules : Prop :=
  Spec.completesAs .tax ([0xAA], 2) (fun s => { s with x := s.a, flags := Spec.nz s.a s.flags }) ∧
    Spec.completesAs .tay ([0xA8], 2) (fun s => { s with y := s.a, flags := Spec.nz s.a s.flags }) ∧
    Spec.completesAs .txa ([0x8A], 2) (fun s => { s with a := s.x, flags := Spec.nz s.x s.flags }) ∧
    Spec.completesAs .tya ([0x98], 2) (fun s => { s with a := s.y, flags := Spec.nz s.y s.flags }) ∧
    Spec.completesAs .tsx ([0xBA], 2) (fun s => { s with x := s.sp, flags := Spec.nz s.sp s.flags }) ∧
    Spec.completesAs .txs ([0x9A], 2) (fun s => { s with sp := s.x })

/-- For every form and state: A becomes A + M + C modulo 256, C says the sum reached 256, V that the signed sum
left -128..127, Z and N follow from the result; D is neither read nor written, and everything else is as the
operand read leaves it. A step that finds the encoding at PC does this, with PC past it and the base cycles
charged. (States R401.) -/
def Obligations.AdcAddsWithCarry : Prop :=
  ∀ o, Spec.completesAs (.adc o) (Spec.loadRow 0x60 o) (Spec.onA Spec.add (loadOperand o))

/-- For every form and state: A becomes A - M - (1 - C) modulo 256, C is 1 when A >= M + (1 - C), V that the
signed difference left -128..127, Z and N follow from the result; D is neither read nor written, and everything
else is as the operand read leaves it. A step that finds the encoding at PC does this, with PC past it and the
base cycles charged. (States R402.) -/
def Obligations.SbcSubtractsWithBorrow : Prop :=
  ∀ o, Spec.completesAs (.sbc o) (Spec.loadRow 0xE0 o) (Spec.onA Spec.subtract (loadOperand o))

/-- For every form and state: A becomes A & M, A | M or A ^ M, Z and N follow from it, and everything else is as
the operand read leaves it. A step that finds the encoding at PC does this, with PC past it and the base cycles
charged. (States R403, R404, R405.) -/
def Obligations.LogicFollowsTheRules : Prop :=
  (∀ o, Spec.completesAs (.and o) (Spec.loadRow 0x20 o)
      (Spec.onA (fun a m f => (a &&& m, Spec.nz (a &&& m) f)) (loadOperand o))) ∧
    (∀ o, Spec.completesAs (.ora o) (Spec.loadRow 0x00 o)
      (Spec.onA (fun a m f => (a ||| m, Spec.nz (a ||| m) f)) (loadOperand o))) ∧
    (∀ o, Spec.completesAs (.eor o) (Spec.loadRow 0x40 o)
      (Spec.onA (fun a m f => (a ^^^ m, Spec.nz (a ^^^ m) f)) (loadOperand o)))

/-- For every form and state: C is register >= operand unsigned, Z is equality, N is bit 7 of the difference
modulo 256; no register, V or other flag changes, and everything else is as the operand read leaves it. A step
that finds the encoding at PC does this, with PC past it and the base cycles charged. (States R406, R407, R408.)
-/
def Obligations.ComparesFollowTheRules : Prop :=
  (∀ o, Spec.completesAs (.cmp o) (Spec.loadRow 0xC0 o)
      (fun s => Spec.onFlags (Spec.compared s.a) (loadOperand o) s)) ∧
    (∀ o, Spec.completesAs (.cpx o) (Spec.cpRow 0xE0 o) (fun s => Spec.onFlags (Spec.compared s.x) (cpOperand o) s)) ∧
    (∀ o, Spec.completesAs (.cpy o) (Spec.cpRow 0xC0 o) (fun s => Spec.onFlags (Spec.compared s.y) (cpOperand o) s))

/-- For both forms and every state: Z is A & M = 0, N is bit 7 and V bit 6 of the operand, A, C and every other
flag are unchanged, and everything else is as the operand read leaves it. A step that finds the encoding at PC
does this, with PC past it and the base cycles charged. (States R409.) -/
def Obligations.BitTestsMemoryAgainstA : Prop :=
  ∀ o, Spec.completesAs (.bit o) (Spec.bitRow o) (fun s => Spec.onFlags (Spec.tested s.a) (bitOperand o) s)

/-- For every form and state: one bus read and one bus write of the effective address, the byte plus or minus 1
modulo 256, Z and N from it, C and V unchanged, no page-cross penalty. A step that finds the encoding at PC does
this, with PC past it and the base cycles charged. (States R410, R411.) -/
def Obligations.MemoryIncrementsFollowTheRules : Prop :=
  (∀ o, Spec.completesAs (.inc o) (Spec.incRow 0xE0 o) (Spec.onMemory (Spec.stepped 1) (incMode o))) ∧
    (∀ o, Spec.completesAs (.dec o) (Spec.incRow 0xC0 o) (Spec.onMemory (Spec.stepped 255) (incMode o)))

/-- In every state the register changes by one modulo 256, Z and N follow from the new value, and nothing else
changes. A step that finds the opcode at PC does this, with PC past it and 2 cycles charged. (States R412, R413,
R414, R415.) -/
def Obligations.RegisterIncrementsFollowTheRules : Prop :=
  Spec.completesAs .inx ([0xE8], 2)
      (fun s => { s with x := (Spec.stepped 1 s.x s.flags).1, flags := (Spec.stepped 1 s.x s.flags).2 }) ∧
    Spec.completesAs .iny ([0xC8], 2)
      (fun s => { s with y := (Spec.stepped 1 s.y s.flags).1, flags := (Spec.stepped 1 s.y s.flags).2 }) ∧
    Spec.completesAs .dex ([0xCA], 2)
      (fun s => { s with x := (Spec.stepped 255 s.x s.flags).1, flags := (Spec.stepped 255 s.x s.flags).2 }) ∧
    Spec.completesAs .dey ([0x88], 2)
      (fun s => { s with y := (Spec.stepped 255 s.y s.flags).1, flags := (Spec.stepped 255 s.y s.flags).2 })

/-- For the accumulator and every memory form, in every state: the result is 2v, v / 2, 2v + C or 128C + v / 2
modulo 256, C is the bit shifted out, Z and N follow from the result, V is unchanged; memory forms make one read
and one write of the effective address, without a page-cross penalty. A step that finds the encoding at PC does
this, with PC past it and the base cycles charged. (States R501, R502, R503, R504.) -/
def Obligations.ShiftsFollowTheRules : Prop :=
  ∀ o, let on (g : Byte → Flags → Byte × Flags) (s : State) : State :=
      match Spec.shiftMode o with
      | none => { s with a := (g s.a s.flags).1, flags := (g s.a s.flags).2 }
      | some m => Spec.onMemory g m s
    Spec.completesAs (.asl o) (Spec.shiftRow 0x00 o) (on Spec.shiftedLeft) ∧
    Spec.completesAs (.lsr o) (Spec.shiftRow 0x40 o) (on Spec.shiftedRight) ∧
    Spec.completesAs (.rol o) (Spec.shiftRow 0x20 o) (on Spec.rotatedLeft) ∧
    Spec.completesAs (.ror o) (Spec.shiftRow 0x60 o) (on Spec.rotatedRight)

/-- For every offset and state: when the condition holds PC becomes the address of the next instruction plus the
signed offset modulo 0x10000, charged 1 cycle under nmos and 1 more when that lands in another page; else PC
stays. No flag or other state changes. A step that finds the encoding at PC does this, with PC past it first and
2 cycles charged. (States R600, R601, R602, R603, R604, R605, R606, R607, R608.) -/
def Obligations.BranchesFollowTheRules : Prop :=
  ∀ off : Byte,
    Spec.completesAs (.bpl off) (Spec.two 0x10 off, 2) (fun s => Spec.branched (!s.flags.n) off s) ∧
    Spec.completesAs (.bmi off) (Spec.two 0x30 off, 2) (fun s => Spec.branched s.flags.n off s) ∧
    Spec.completesAs (.bvc off) (Spec.two 0x50 off, 2) (fun s => Spec.branched (!s.flags.v) off s) ∧
    Spec.completesAs (.bvs off) (Spec.two 0x70 off, 2) (fun s => Spec.branched s.flags.v off s) ∧
    Spec.completesAs (.bcc off) (Spec.two 0x90 off, 2) (fun s => Spec.branched (!s.flags.c) off s) ∧
    Spec.completesAs (.bcs off) (Spec.two 0xB0 off, 2) (fun s => Spec.branched s.flags.c off s) ∧
    Spec.completesAs (.bne off) (Spec.two 0xD0 off, 2) (fun s => Spec.branched (!s.flags.z) off s) ∧
    Spec.completesAs (.beq off) (Spec.two 0xF0 off, 2) (fun s => Spec.branched s.flags.z off s)

/-- The absolute form sets PC to the operand. The indirect form reads the low byte at the pointer and then the
high byte at the next address within the pointer's page, both through the bus, and sets PC to that word. No flag
changes. A step that finds the encoding at PC does this, with 3 or 5 cycles charged. (States R609, R217.) -/
def Obligations.JumpsFollowTheRules : Prop :=
  (∀ a, Spec.completesAs (.jmp (.abs a)) (Spec.three 0x4C a, 3) (fun s => { s with pc := a })) ∧
    ∀ ptr : Addr, Spec.completesAs (.jmp (.ind ptr)) (Spec.three 0x6C ptr, 5) (fun s =>
      let low := busRead ptr s
      let high := busRead (BitVec.ofNat 16 (ptr.toNat / 256 * 256 + (ptr.toNat + 1) % 256)) low.2
      { high.2 with pc := Spec.word high.1 low.1 })

/-- JSR writes PC - 1 to the two stack bytes at S and S - 1 in page 1, high byte at S, lowers S by 2 modulo 256
and sets PC to the target. RTS takes the low byte at S + 1 and the high byte at S + 2, raises S by 2 and sets PC
to that word plus 1 modulo 0x10000. No flag and nothing else changes. A step that finds the encoding at PC does
this, with 6 cycles charged. (States R610, R611.) -/
def Obligations.SubroutineCallAndReturn : Prop :=
  (∀ a : Addr, Spec.completesAs (.jsr a) (Spec.three 0x20 a, 6) (fun s =>
      let ret := (s.pc.toNat + 65535) % 65536
      { s with
        ram := (s.ram.write (Spec.slot s 0) (Spec.hi ret)).write (Spec.slot s 255) (Spec.lo ret)
        sp := BitVec.ofNat 8 (s.sp.toNat + 254), pc := a })) ∧
    Spec.completesAs .rts ([0x60], 6) (fun s =>
      { s with
        pc := BitVec.ofNat 16 (256 * (Spec.pulled s 2).toNat + (Spec.pulled s 1).toNat + 1)
        sp := BitVec.ofNat 8 (s.sp.toNat + 2) })

/-- PHA writes A, and PHP the status byte with bits 5 and 4 set, at 0x0100 + S and lower S by one modulo 256;
PLA loads A from the byte above S and sets Z and N; PLP loads all seven flags from it, ignoring bit 5; both
raise S. Nothing else changes. A step that finds the opcode at PC does this, with 3 or 4 cycles charged. (States
R701, R702, R703, R704.) -/
def Obligations.StackInstructionsFollowTheRules : Prop :=
  Spec.completesAs .pha ([0x48], 3) (fun s =>
      { s with ram := s.ram.write (Spec.slot s 0) s.a, sp := BitVec.ofNat 8 (s.sp.toNat + 255) }) ∧
    Spec.completesAs .php ([0x08], 3) (fun s =>
      { s with
        ram := s.ram.write (Spec.slot s 0) (BitVec.ofNat 8 (Spec.status true s.flags))
        sp := BitVec.ofNat 8 (s.sp.toNat + 255) }) ∧
    Spec.completesAs .pla ([0x68], 4) (fun s =>
      { s with
        a := Spec.pulled s 1, flags := Spec.nz (Spec.pulled s 1) s.flags
        sp := BitVec.ofNat 8 (s.sp.toNat + 1) }) ∧
    Spec.completesAs .plp ([0x28], 4) (fun s =>
      { s with flags := Spec.unpacked (Spec.pulled s 1), sp := BitVec.ofNat 8 (s.sp.toNat + 1) })

/-- In every state each flag instruction sets its flag and changes nothing else, and NOP changes nothing. A step
that finds the opcode at PC does this, with PC past it and 2 cycles charged. (States R705, R706, R707, R708,
R709, R710, R711, R714.) -/
def Obligations.FlagInstructionsWriteOneFlag : Prop :=
  Spec.completesAs .clc ([0x18], 2) (fun s => { s with flags := { s.flags with c := false } }) ∧
    Spec.completesAs .sec ([0x38], 2) (fun s => { s with flags := { s.flags with c := true } }) ∧
    Spec.completesAs .cli ([0x58], 2) (fun s => { s with flags := { s.flags with i := false } }) ∧
    Spec.completesAs .sei ([0x78], 2) (fun s => { s with flags := { s.flags with i := true } }) ∧
    Spec.completesAs .cld ([0xD8], 2) (fun s => { s with flags := { s.flags with d := false } }) ∧
    Spec.completesAs .sed ([0xF8], 2) (fun s => { s with flags := { s.flags with d := true } }) ∧
    Spec.completesAs .clv ([0xB8], 2) (fun s => { s with flags := { s.flags with v := false } }) ∧
    Spec.completesAs .nop ([0xEA], 2) (fun s => s)

/-- BRK pushes PC high, PC low and the status byte with bits 5 and 4 set at S, S - 1 and S - 2 in page 1, lowers
S by 3, sets I and B and loads PC from 0xFFFE; D is not cleared and the pending slot is untouched, whatever I
holds. RTI loads all seven flags from S + 1 and PC from S + 2 and S + 3 with nothing added, and raises S by 3.
Nothing else changes. A step that finds the encoding at PC does this, BRK two bytes long with 7 cycles, RTI with
6. (States R712, R713.) -/
def Obligations.BrkAndRtiFollowTheRules : Prop :=
  (∀ pad, Spec.completesAs (.brk pad) (Spec.two 0x00 pad, 7) (Spec.entered true 0xFFFE)) ∧
    Spec.completesAs .rti ([0x40], 6) (fun s =>
      { s with
        flags := Spec.unpacked (Spec.pulled s 1), pc := Spec.word (Spec.pulled s 3) (Spec.pulled s 2)
        sp := BitVec.ofNat 8 (s.sp.toNat + 3) })

/-- From every state, for every value of S: JSR then RTS leaves the state as it was but for RAM, PC again after
the JSR; BRK, or an IRQ or NMI entry, then RTI leaves it as it was but for RAM and B, which holds the pushed bit
4; PHP then PLP the same with B = 1; PHA then PLA as it was but for RAM and Z and N from A. (Derived from R610,
R611, R820, R821, R713, R703, R704, R701, R702.) -/
def Obligations.WhatIsPushedIsPulledBack : Prop :=
  (∀ (a : Addr) (s : State), ∃ t u, exec (.jsr a) s = .next t ∧ exec .rts t = .next u ∧ u = { s with ram := t.ram }) ∧
    (∀ (p : Byte) (s : State), ∃ t u, exec (.brk p) s = .next t ∧ exec .rti t = .next u ∧
      u = { s with ram := t.ram, flags := { s.flags with b := true } }) ∧
    (∀ (k : Entry) (s : State), exec .rti (takeInterrupt k s) = .next
      { s with ram := (takeInterrupt k s).ram, flags := { s.flags with b := decide (k = .brk) } }) ∧
    (∀ s : State, ∃ t u, exec .php s = .next t ∧ exec .plp t = .next u ∧
      u = { s with ram := t.ram, flags := { s.flags with b := true } }) ∧
    (∀ s : State, ∃ t u, exec .pha s = .next t ∧ exec .pla t = .next u ∧
      u = { s with ram := t.ram, flags := Spec.nz s.a s.flags })

/-- For every state: with nothing pending nothing happens; NMI empties the slot, enters through 0xFFFA and
charges 7; IRQ with I = 0 the same through 0xFFFE; IRQ with I = 1 empties the slot under drop and stays under
retain; RESET empties the slot, loads PC from 0xFFFC, S = 0xFF, I = 1, leaves A, X, Y, the other flags and the
bytes 0x01FD-0x01FF free values, and charges 7. The entry pushes PC high, PC low and the status byte with bit 4
clear, sets I, clears B, keeps D. (States R815, R820, R901.) -/
def Obligations.ServiceTakesThePendingRequest : Prop :=
  (∀ s : State, takeInterrupt .nmi s = Spec.entered false 0xFFFA s ∧ takeInterrupt .irq s = Spec.entered false 0xFFFE s ∧
      takeInterrupt .brk s = Spec.entered true 0xFFFE s) ∧
    ∀ s : State,
      (s.pending = none → service s = s) ∧
      (s.pending = some .nmi →
        service s = { Spec.entered false 0xFFFA { s with pending := none } with cost := s.cost + 7 }) ∧
      (s.pending = some .irq → s.flags.i = false →
        service s = { Spec.entered false 0xFFFE { s with pending := none } with cost := s.cost + 7 }) ∧
      (s.pending = some .irq → s.flags.i = true → s.params.maskedIrq = .drop → service s = { s with pending := none }) ∧
      (s.pending = some .irq → s.flags.i = true → s.params.maskedIrq = .retain → service s = s) ∧
      (s.pending = some .reset → ∃ (a x y d1 d2 d3 : Byte) (f : Flags) (n : Nat), service s =
        { s with
          pending := none, pc := Spec.vectorWord 0xFFFC s, sp := 0xFF, flags := { f with i := true }
          a := a, x := x, y := y, draws := n, cost := s.cost + 7
          ram := ((s.ram.write 0x1FD d1).write 0x1FE d2).write 0x1FF d3 })

/-- An instruction leaves the pending slot as it was, and an iteration leaves it as it was or empty: requests
are made only between run calls. (Derived from R810, R61, R815.) -/
def Obligations.InstructionsMakeNoRequest : Prop :=
  (∀ (i : Instr) (s t : State), exec i s = .next t → t.pending = s.pending) ∧
    ∀ s t : State, s.frame.phase = .running → 0 < s.remaining → step s = .next t →
      t.pending = s.pending ∨ t.pending = none

/-- For every state: PC is the word at 0xFFFC, S = 0xFF, I = 1, the pending slot is empty, remaining is 0, A, X,
Y and the other flags are free values, and nothing else changes: no memory, no device, not the clock. (States
R900.) -/
def Obligations.HostResetReinitializesOnlyTheCpu : Prop :=
  ∀ s : State, ∃ (a x y : Byte) (f : Flags) (n : Nat), hostReset s =
    { s with
      pc := Spec.vectorWord 0xFFFC s, sp := 0xFF, flags := { f with i := true }, a := a, x := x, y := y
      pending := none, remaining := 0, draws := n }

/-- For every image with a 16-byte header and every choice of the power-on draws: without the magic, without PRG
pages or with another mapper number there is no machine, by name; otherwise there is one. Which failure an image
with several reports, the first in that order, is the model's choice (log 26). Its cartridge and mirroring are
those of the header, CHR RAM a draw where there is no CHR page; its variant is that of the number, control 0x0C,
every other bank register 0, the windows derived, so that mappers 1 and 2 show the first and the last PRG bank.
PC is the reset vector, S = 0xFF, I = 1, nothing pending, remaining and clock 0, empty logs and queue, cursor 0,
LFSR 1, the pads all false, scanline and frame 0, the stop flag false, and every other part of RAM, SRAM, PPU
and APU the draw. With mapper 0 and one PRG page, PC is the word at PRG offset 0x3FFC. That the driver stands at
a line's start and the audio block is empty is the model's (log 12, log 20). (Derived from R802, R902, R1332,
R1330, R1331, R1340, R1310, R75.) -/
def Obligations.PowerOnLoadsOrRefuses : Prop :=
  ∀ (m : Image) (d : State), m.header.length = 16 →
    let magic := m.header.take 4 = [0x4E, 0x45, 0x53, 0x1A]
    let number := (m.byte 7).toNat / 16 * 16 + (m.byte 6).toNat / 16
    let pages := (m.byte 4).toNat
    (¬ magic → powerOn m d = .error .badMagic) ∧
    (magic → pages = 0 → powerOn m d = .error .noPrg) ∧
    (magic → pages ≠ 0 → 3 < number → powerOn m d = .error (.unsupportedMapper number)) ∧
    (magic → pages ≠ 0 → number ≤ 3 → ∃ s, powerOn m d = .ok s ∧ s.fresh ∧
      s.cart =
        { prgPages := pages, chrPages := (m.byte 5).toNat, mirrorV := Spec.bitOf (m.byte 6) 0
          fourScreen := Spec.bitOf (m.byte 6) 3, hasSram := Spec.bitOf (m.byte 6) 1, prg := m.prg
          chr := if (m.byte 5).toNat = 0 then d.cart.chr else m.chr } ∧
      s.mapper.regs = (if number = 0 then .fixedBank
        else if number = 1 then .shiftReg { shift := 0, count := 0, control := 0x0C, chr0 := 0, chr1 := 0, prg := 0 }
        else if number = 2 then .prgBankSelect 0
        else .chrBankSelect 0) ∧
      s.windowsDerived ∧
      (number = 1 ∨ number = 2 → s.mapper.win.prg0 = 0 ∧ s.mapper.win.prg1 = 16384 * (pages - 1)) ∧
      s.ppu = { d.ppu with
        sprOverflow := false
        ntmap := ntmapOf (if Spec.bitOf (m.byte 6) 3 then .fourScreen
          else if Spec.bitOf (m.byte 6) 0 then .vertical else .horizontal) } ∧
      s.apu = { d.apu with queue := [], cursor := 0, sound := [], noise := { d.apu.noise with lfsr := 1 } } ∧
      s.pads =
        { snap0 := Vector.replicate 8 false, snap1 := Vector.replicate 8 false, idx0 := 0, idx1 := 0
          strobe := false } ∧
      s.frame = { d.frame with line := 0, count := 0, stop := false, phase := .lineStart } ∧
      s.ram = d.ram ∧ s.sram = d.sram ∧ s.params = d.params ∧
      (number = 0 → pages = 1 → s.pc = Spec.word (m.prg.read 0x3FFD) (m.prg.read 0x3FFC)))

/-- Whenever a run call has cycles left, and the bytes at PC after interrupt service lie in plain memory and
decode to an instruction, the step is exec of that instruction on the serviced state with PC past its bytes and
its base cost charged; after it remaining falls and clock rises by everything charged. With nothing pending,
service changes nothing but the cost, which starts at 0. (Derived from R903, R905, R815, R200.) -/
def Obligations.StepRunsTheDecodedInstruction : Prop :=
  (∀ (s u : State) (i : Instr) (bs : List Byte), s.frame.phase = .running → 0 < s.remaining →
      u = service { s with cost := 0 } → Spec.bytesAt u.pc bs u → decode bs = .ok (i, []) →
      step s = match exec i { u with pc := u.pc + BitVec.ofNat 16 bs.length, cost := u.cost + baseCycles i } with
        | .next t => .next (Spec.charged t)
        | .fault f => .fault f
        | .refused r => .refused r) ∧
    ∀ s : State, s.pending = none → service { s with cost := 0 } = { s with cost := 0 }

/-- There is no fault, no refusal and no stuck state: exec of every instruction and step answer a next state for
every state. (Derived from R801, R112.) -/
def Obligations.EveryStepCompletes : Prop :=
  (∀ (i : Instr) (s : State), ∃ t, exec i s = .next t) ∧ ∀ s : State, ∃ t, step s = .next t

/-- A step inside a run call with cycles left lowers remaining and raises clock by one amount, at least 2, and
leaves the frame driver as it was; with no cycles left, or at a line's start, or after the run has ended, the
clock does not move. So the clock never decreases. (Derived from R903, R905, R62, R63.) -/
def Obligations.IterationsChargeRemainingAndClock : Prop :=
  (∀ s t : State, s.frame.phase = .running → 0 < s.remaining → step s = .next t →
      ∃ n : Nat, 2 ≤ n ∧ t.remaining = s.remaining - n ∧ t.clock = s.clock + n ∧ t.cost = 0 ∧ t.frame = s.frame) ∧
    ∀ s t : State, ¬ (s.frame.phase = .running ∧ 0 < s.remaining) → step s = .next t → t.clock = s.clock

/-- With u the state after the host's actions: after line 240 vblank is 1, and NMI is requested exactly if
PPUCTRL bit 7 is 1; after line 261 the applied $4017 value with bits 7 and 6 clear requests IRQ, the framebuffer
goes to the display, the frame count rises, the run ends if the stop flag is set, and with rendering enabled v
becomes t; on visible lines with rendering enabled v takes the Y increment; after every line the scanline moves,
and nothing else of u changes. The host's actions change nothing of the frame driver but the stop flag, and none
is u = s. That the host acts before the driver's own actions is log 9, the phase is log 12, the display log 20:
the model's choices. (Derived from R1250, R1251, R1252, R1261, R1262, R950.) -/
def Obligations.EndOfLineAdvancesTheFrame : Prop :=
  ∀ s t u : State, s.frame.phase = .running → s.remaining ≤ 0 → s.frame.line ≤ 261 → u = hostActs .afterRun s →
    step s = .next t →
    let n := s.frame.line
    let rendering := u.ppu.mask.getLsbD 3 || u.ppu.mask.getLsbD 4
    t = { u with
      ppu := { u.ppu with
        v := if n ≤ 239 ∧ rendering = true then incY u.ppu.v
          else if n = 261 ∧ rendering = true then u.ppu.t else u.ppu.v
        vblank := decide (n = 240) || u.ppu.vblank }
      pending := if n = 240 ∧ u.ppu.ctrl.getLsbD 7 = true then some .nmi
        else if n = 261 ∧ u.apu.frameLatch.toNat < 64 then some .irq else u.pending
      frame := { u.frame with
        line := (n + 1) % 262
        count := s.frame.count + (if n = 261 then 1 else 0)
        display := if n = 261 then s.frame.fb else s.frame.display
        phase := if n = 261 ∧ u.frame.stop = true then .ended else .lineStart } } ∧
    u.frame = { s.frame with stop := u.frame.stop } ∧
    (Config.hostEvents s.frame.count n .afterRun = [] → u = s)

/-- With w the state before the host's actions and u the one after them: on line 0 the pads' snapshots are
taken; on a visible line, with rendering enabled, v takes coarse X and the horizontal table of t, the line's 256
bytes become what R1030 gives (backdrop, background, sprites, clipping), v moves on by 33 tiles if the
background is enabled, and sprite-zero hit is set if sprites are enabled and sprite 0 has an opaque pixel on the
line; on line 261 vblank and sprite-zero hit become 0. Nothing else of s changes in w. The step gives u with the
line's budget added to remaining, inside the run call; the framebuffer is w's, and the scanline, the frame
count, the clock, RAM and PRG stay. The snapshot function is log 10, the host's point log 9, the phase log 12,
the budget function log 8: the model's choices. (Derived from R1250, R1030, R1035, R1044, R1260, R152, R903,
R950.) -/
def Obligations.StartOfLineRendersOneRow : Prop :=
  ∀ s t : State, s.frame.phase = .lineStart → step s = .next t →
    let n := s.frame.line
    let rendering := s.ppu.mask.getLsbD 3 || s.ppu.mask.getLsbD 4
    let v := if n ≤ 239 ∧ rendering = true then Spec.copiedX s.ppu.t s.ppu.v else s.ppu.v
    let w := beforeLine s
    let u := hostActs .beforeRun w
    w = { s with
      pads := if n = 0
        then { s.pads with snap0 := Config.padInput s.frame.count 0, snap1 := Config.padInput s.frame.count 1 }
        else s.pads
      ppu := { s.ppu with
        v := if n ≤ 239 ∧ s.ppu.mask.getLsbD 3 = true then Spec.tiledV 33 v else v
        vblank := s.ppu.vblank && decide (n ≠ 261)
        sprite0hit := (s.ppu.sprite0hit || (decide (n ≤ 239) && s.ppu.mask.getLsbD 4 && Spec.spriteZero n s)) &&
          decide (n ≠ 261) }
      frame := { s.frame with fb := w.frame.fb } } ∧
    (∀ k, w.frame.fb.read k = if n ≤ 239 ∧ k / 256 = n
      then Spec.rowByte n (k % 256) { s with ppu := { s.ppu with v := v } } else s.frame.fb.read k) ∧
    t = { u with
      remaining := u.remaining + (Config.scanlineBudget s.frame.count n).toInt
      frame := { u.frame with phase := .running } } ∧
    (Config.hostEvents s.frame.count n .beforeRun = [] → u = w) ∧
    t.frame.line = n ∧ t.frame.count = s.frame.count ∧ t.frame.fb = w.frame.fb ∧ t.clock = s.clock ∧
    (n = 261 → t.ppu.vblank = false ∧ t.ppu.sprite0hit = false) ∧
    t.pads.snap0 = w.pads.snap0 ∧ t.pads.snap1 = w.pads.snap1 ∧ t.ram = s.ram ∧ t.cart.prg = s.cart.prg

/-- For every instruction and state, with storesTo the addresses it stores to (the effective address of STA,
STX, STY, INC, DEC and memory shifts; the stack bytes of PHA, PHP, JSR and BRK; none for the rest): every
plain-memory byte that is not one of them or a mirror of one reads as before, below 0x8000 always and above it
unless the store is to a mapper register; PRG contents never change. (Derived from R103, R111, R223, R113.) -/
def Obligations.StoresTouchOnlyTheirBytes : Prop :=
  ∀ (i : Instr) (s t : State), exec i s = .next t →
    t.cart.prg = s.cart.prg ∧
    ∀ b : Addr, (∀ a ∈ Spec.storesTo i s, ¬ Spec.sameByte a b.toNat) →
      (b.toNat < 0x8000 ∨ ∀ a ∈ Spec.storesTo i s, a < 0x8000) → peek b t = peek b s

/-- For every instruction and state, exec leaves A, X, Y, S, C, Z, N, I, D, V and B each as it was unless the
instruction is one of those that R50, R51 and R55 to R60 list as writing it. (Derived from R50, R51, R55, R56,
R57, R58, R59, R60.) -/
def Obligations.RegistersChangeOnlyByTheirWriters : Prop :=
  ∀ (i : Instr) (s t : State), exec i s = .next t →
    (Spec.writesA i = false → t.a = s.a) ∧ (Spec.writesX i = false → t.x = s.x) ∧
    (Spec.writesY i = false → t.y = s.y) ∧ (Spec.writesS i = false → t.sp = s.sp) ∧
    (Spec.writesC i = false → t.flags.c = s.flags.c) ∧
    (Spec.writesNZ i = false → t.flags.z = s.flags.z ∧ t.flags.n = s.flags.n) ∧
    (Spec.writesI i = false → t.flags.i = s.flags.i) ∧ (Spec.writesD i = false → t.flags.d = s.flags.d) ∧
    (Spec.writesV i = false → t.flags.v = s.flags.v) ∧ (Spec.writesB i = false → t.flags.b = s.flags.b)

/-- For every instruction and state: remaining, clock, the frame driver and the parameters stay; the APU changes
at most by one deferred write at the end of its queue, stamped clock plus what was charged before exec; the
cartridge changes at most in CHR RAM; the pads' snapshots and the two sprite flags stay; the log grows only by
ill, by its opcode. (Derived from R153, R1101, R803, R904, R1304.) -/
def Obligations.InstructionsLeaveThePlatformAlone : Prop :=
  ∀ (i : Instr) (s t : State), exec i s = .next t →
    t.remaining = s.remaining ∧ t.clock = s.clock ∧ t.frame = s.frame ∧ t.params = s.params ∧
    (t.apu = s.apu ∨ ∃ (a : Addr) (v : Byte),
      t.apu = { s.apu with queue := s.apu.queue ++ [{ ts := s.clock + s.cost, addr := a, val := v }] }) ∧
    t.cart = { s.cart with chr := t.cart.chr } ∧ (s.cart.chrPages ≠ 0 → t.cart = s.cart) ∧
    t.pads.snap0 = s.pads.snap0 ∧ t.pads.snap1 = s.pads.snap1 ∧
    t.ppu.sprite0hit = s.ppu.sprite0hit ∧ t.ppu.sprOverflow = s.ppu.sprOverflow ∧
    ((∀ op, i ≠ .ill op) → t.diag = s.diag)

/-- For every instruction that does not push the status byte (PHP, BRK) or write D (CLD, SED, PLP, RTI), running
it with D set to any value gives the same next state with D at that value; ADC and SBC are among them. (Derived
from R58, R401, R402.) -/
def Obligations.OnlyPushesOfStatusReadDecimal : Prop :=
  ∀ (i : Instr) (s t : State) (d : Bool), i ≠ .php → (∀ p, i ≠ .brk p) → Spec.writesD i = false →
    exec i s = .next t →
    exec i { s with flags := { s.flags with d := d } } = .next { t with flags := { t.flags with d := d } }

/-- If two states differ at most in the stored B flag, then a step from each gives next states that differ at
most in the stored B flag, for every instruction, interrupt, reset and driver step. (Derived from R59.) -/
def Obligations.StoredBreakFlagIsUnobservable : Prop :=
  ∀ s t s' : State, sameButB s t → step s = .next s' → ∃ t', step t = .next t' ∧ sameButB s' t'

/-- The invariant: every memory is in canonical form and within its size, the window table is the one its bank
registers give, the scanline, the pad indices and the serial count are in their ranges, sprite overflow is 0,
and the deferred queue is ordered by timestamps none of which is later than the clock. (Derived from R1302,
R1101, R1045, R71, R72, R73, R65.) -/
def Obligations.EveryStepKeepsTheInvariant : Prop :=
  ∀ s t : State, s.Inv → step s = .next t → t.Inv

/-- State.reset meets the invariant and is fresh: PC the word at 0xFFFC, S = 0xFF, I = 1, nothing pending,
remaining and clock 0, the log empty; the deferred queue is empty, the cursor 0, the LFSR 1, the pads at rest,
scanline and frame 0. (Derived from R75, R960, R902.) -/
def Obligations.ResetMeetsTheInvariantAndTheSpecValues : Prop :=
  State.reset.Inv ∧ State.reset.fresh ∧ State.reset.apu.queue = [] ∧ State.reset.apu.cursor = 0 ∧
    State.reset.apu.noise.lfsr = 1 ∧ State.reset.pads = Pads.reset ∧ State.reset.frame.line = 0 ∧
    State.reset.frame.count = 0

/-- For every state, a read of $2002 has bit 7 = vblank, bit 6 = sprite-zero hit and bit 5 = sprite overflow;
the other five bits are a free value; after it vblank and w are 0 and nothing else but the count of draws has
changed; a write of $2002 changes nothing. (Derived from R1022, R1023, R1024.) -/
def Obligations.StatusReadClearsVblankAndToggle : Prop :=
  ∀ (s : State) (d : Byte), ∃ r : Byte, r.toNat < 32 ∧
    busRead 0x2002 s =
      (BitVec.ofNat 8 (128 * s.ppu.vblank.toNat + 64 * s.ppu.sprite0hit.toNat + 32 * s.ppu.sprOverflow.toNat + r.toNat),
        { s with ppu := { s.ppu with vblank := false, w := false }, draws := s.draws + 1 }) ∧
    busWrite 0x2002 d s = s

/-- From w = 0, writing h and l to $2006 sets v to (h mod 64) * 256 + l. A $2007 read below 0x3F00 gives the old
buffer and fills it with the byte at v; from 0x3F00 up it gives the palette byte and fills the buffer from
0x1000 lower; a $2007 write stores at v; each access moves v by 1, or 32 with PPUCTRL bit 2, modulo 0x8000, and
changes nothing else. The PPU address is v modulo 0x4000: CHR through the mapper's windows, the nametables, the
palette. So after the two $2006 writes the first read below 0x3F00 is the old buffer and the next one the byte
there. A read of $2000, $2001, $2003, $2005 or $2006 is a free value (log 6) and changes only the count of
draws. (Derived from R1023, R1024, R1010, R1011, R1012, R1303.) -/
def Obligations.DataPortReadsAreBuffered : Prop :=
  (∀ (a : BitVec 14) (d : Byte) (s : State),
      ppuRead a s = Spec.shown a.toNat s ∧ ppuWrite a d s = Spec.stored a.toNat d s) ∧
    (∀ (s : State) (d : Byte), let a := s.ppu.v.toNat % 0x4000
      busRead 0x2007 s =
        (if a < 0x3F00 then s.ppu.rdbuf else Spec.shown a s,
          { s with ppu := { s.ppu with
            rdbuf := if a < 0x3F00 then Spec.shown a s else Spec.shown (a - 0x1000) s
            v := Spec.steppedV s.ppu } }) ∧
      Spec.port 7 d s = { Spec.stored a d s with ppu := { (Spec.stored a d s).ppu with v := Spec.steppedV s.ppu } }) ∧
    (∀ (s : State) (p : Nat), p ∈ [0, 1, 3, 5, 6] →
      busRead (BitVec.ofNat 16 (0x2000 + p)) s = (Config.freeByte s.draws, { s with draws := s.draws + 1 })) ∧
    ∀ (s : State) (h l : Byte) (n : Nat), s.ppu.w = false → n = h.toNat % 64 * 256 + l.toNat →
      let p := Spec.port 6 l (Spec.port 6 h s)
      let r1 := busRead 0x2007 p
      let r2 := busRead 0x2007 r1.2
      p.ppu.v.toNat = n ∧ p.ppu.w = false ∧
      (n < 0x3F00 → r1.1 = s.ppu.rdbuf ∧ r2.1 = (if n + (if s.ppu.ctrl.getLsbD 2 then 32 else 1) < 0x3F00
        then ppuRead (BitVec.ofNat 14 n) s
        else ppuRead (BitVec.ofNat 14 (n + (if s.ppu.ctrl.getLsbD 2 then 32 else 1))) s)) ∧
      (0x3F00 ≤ n → r1.1 = ppuRead (BitVec.ofNat 14 n) s) ∧
      r2.2.ppu.v.toNat = (n + 2 * (if s.ppu.ctrl.getLsbD 2 then 32 else 1)) % 0x8000

/-- For every state: $2000 sets PPUCTRL and t's nametable select. The first $2005 write (w = 0) sets coarse X
and fine X, the second coarse Y and fine Y, each leaving t's other fields; the first $2006 write sets t's bits
13 to 8 and clears bit 14, the second sets the low byte and copies t to v; w toggles. $2001 sets PPUMASK, $2003
OAMADDR. Nothing else changes. (Derived from R1024, R1025, R68.) -/
def Obligations.ScrollWritesPackTheirFields : Prop :=
  ∀ (s : State) (d : Byte), let t := s.ppu.t
    Spec.port 0 d s = { s with ppu := { s.ppu with
      ctrl := d
      t := BitVec.ofNat 15 (Spec.packed (Spec.fineY t) (d.toNat % 4) (Spec.coarseY t) (Spec.coarseX t)) } } ∧
    Spec.port 1 d s = { s with ppu := { s.ppu with mask := d } } ∧
    Spec.port 3 d s = { s with ppu := { s.ppu with oamaddr := d } } ∧
    (s.ppu.w = false → Spec.port 5 d s = { s with ppu := { s.ppu with
      t := BitVec.ofNat 15 (Spec.packed (Spec.fineY t) (Spec.ntSelect t) (Spec.coarseY t) (d.toNat / 8))
      x := BitVec.ofNat 3 d.toNat, w := true } }) ∧
    (s.ppu.w = true → Spec.port 5 d s = { s with ppu := { s.ppu with
      t := BitVec.ofNat 15 (Spec.packed (d.toNat % 8) (Spec.ntSelect t) (d.toNat / 8) (Spec.coarseX t))
      w := false } }) ∧
    (s.ppu.w = false → Spec.port 6 d s = { s with ppu := { s.ppu with
      t := BitVec.ofNat 15 (d.toNat % 64 * 256 + t.toNat % 256), w := true } }) ∧
    (s.ppu.w = true → Spec.port 6 d s = { s with ppu := { s.ppu with
      t := BitVec.ofNat 15 (t.toNat / 256 * 256 + d.toNat), v := BitVec.ofNat 15 (t.toNat / 256 * 256 + d.toNat)
      w := false } })

/-- changeMirroring sets the map only, to the buffers 0, 0, 1, 1 (horizontal), 0, 1, 0, 1 (vertical), 0, 1, 2, 3
(four-screen) or 0, 0, 0, 0 (single-screen-0) for tables 0 to 3, so a second call with the same mode changes
nothing. After it, a byte written at offset o of logical table m is read back at offset o of table n if the mode
aliases m and n, and otherwise table n reads as before, as does every other offset. R1013 marks the assignments
as not in its source. (Derived from R1013.) -/
def Obligations.MirroringAliasesNametables : Prop :=
  ∀ (mode : Mirroring) (s : State),
    changeMirroring mode (changeMirroring mode s) = changeMirroring mode s ∧
    (∃ map : NtMap, changeMirroring mode s = { s with ppu := { s.ppu with ntmap := map } } ∧
      [map.n0.val, map.n1.val, map.n2.val, map.n3.val] = Spec.buffers mode) ∧
    ∀ (m n o q : Nat) (v : Byte), m < 4 → n < 4 → o < 1024 → q < 1024 →
      let u := changeMirroring mode s
      ppuRead (BitVec.ofNat 14 (0x2000 + 1024 * n + q)) (ppuWrite (BitVec.ofNat 14 (0x2000 + 1024 * m + o)) v u) =
        if Spec.aliased mode m n = true ∧ q = o then v else ppuRead (BitVec.ofNat 14 (0x2000 + 1024 * n + q)) u

/-- A byte written at a palette address is read back at exactly the addresses from 0x3F00 up that name the same
entry by those two mirrors; every other palette address reads as before. (States R1011.) -/
def Obligations.PaletteEntriesMirror : Prop :=
  ∀ (a b : BitVec 14) (v : Byte) (s : State), 0x3F00 ≤ a.toNat → 0x3F00 ≤ b.toNat →
    ppuRead b (ppuWrite a v s) = if Spec.paletteEntry a.toNat = Spec.paletteEntry b.toNat then v else ppuRead b s

/-- For every v: the coarse X step adds one modulo 32 and switches the horizontal table exactly from 31; the Y
step adds one to fine Y, and from 7 adds one to coarse Y, which from 29 becomes 0 and switches the vertical
table and from 31 becomes 0 without a switch. The other fields stay. (States R1033, R1034.) -/
def Obligations.ScrollStepsWrapIntoNametables : Prop :=
  ∀ v : BitVec 15, let fy := Spec.fineY v
    let nt := Spec.ntSelect v
    let cy := Spec.coarseY v
    let cx := Spec.coarseX v
    incCoarseX v = BitVec.ofNat 15 (if cx = 31 then Spec.packed fy (if nt % 2 = 0 then nt + 1 else nt - 1) cy 0
      else Spec.packed fy nt cy (cx + 1)) ∧
    incY v = BitVec.ofNat 15 (if fy < 7 then Spec.packed (fy + 1) nt cy cx
      else if cy = 29 then Spec.packed 0 ((nt + 2) % 4) 0 cx
      else if cy = 31 then Spec.packed 0 nt 0 cx
      else Spec.packed 0 nt (cy + 1) cx)

/-- A write of d to $4014, where page d is plain memory with bytes b 0 to b 255, sets OAM at (OAMADDR + i) mod
256 to b i for every i below 256, leaves OAMADDR and everything else as it was, and charges DMA_STALL_CYCLES. A
$2004 write stores at OAMADDR and steps it modulo 256; a $2004 read gives the byte there and changes nothing.
(States R1203, R1026.) -/
def Obligations.OamDmaCopiesThePage : Prop :=
  (∀ (d : Byte) (b : Nat → Byte) (s : State),
      (∀ i, i < 256 → peek (BitVec.ofNat 16 (256 * d.toNat + i)) s = some (b i)) →
      ∃ oam : Memory,
        (∀ i, i < 256 → oam.read ((s.ppu.oamaddr.toNat + i) % 256) = b i) ∧
        (∀ k, 256 ≤ k → oam.read k = s.ppu.oam.read k) ∧
        busWrite 0x4014 d s = { s with ppu := { s.ppu with oam := oam }, cost := s.cost + s.params.dmaStall }) ∧
    ∀ (d : Byte) (s : State),
      Spec.port 4 d s = { s with ppu := { s.ppu with
        oam := s.ppu.oam.write s.ppu.oamaddr.toNat d, oamaddr := BitVec.ofNat 8 (s.ppu.oamaddr.toNat + 1) } } ∧
      busRead 0x2004 s = (s.ppu.oam.read s.ppu.oamaddr.toNat, s)

/-- After RenderBackground on a fresh line, column sx holds the palette entry of the colour index and palette of
the tile that column sx + x falls in, and is marked opaque, unless that index is 0 or the column is clipped,
where the backdrop stays; v has advanced by 33 tiles and nothing else of the state has changed. The tile's
number, its palette bits and its two planes are read at the addresses of R1031 and R1032, in numbers. (Derived
from R1031, R1032, R1033, R1046.) -/
def Obligations.BackgroundPixelsComeFromTheirTiles : Prop :=
  ∀ (s : State) (sx : Nat) (backdrop : Byte), sx < 256 →
    let blank : Line := List.replicate 256 { colour := backdrop, bgOpaque := false, sprOcc := false }
    let r := renderBackground blank s
    let c := Spec.backgroundAt sx s
    r.1[sx]? = some (if c.1 = 0 ∨ (sx < 8 ∧ s.ppu.mask.getLsbD 1 = false)
      then { colour := backdrop, bgOpaque := false, sprOcc := false }
      else { colour := s.ppu.pal.read (4 * c.2 + c.1), bgOpaque := true, sprOcc := false }) ∧
    r.2 = { s with ppu := { s.ppu with v := Spec.tiledV 33 s.ppu.v } }

/-- After RenderSprites on a line whose columns no sprite has claimed, a column where no sprite of the line is
opaque, or that is clipped, is as before; else the first OAM entry that is opaque there claims it: it shows its
palette entry, unless it lies behind an opaque background pixel, where the colour stays and later sprites show
nothing. An entry covers 8 or 16 lines from Y + 1 on and 8 columns from X on; its pattern row follows both flips
and the tile selection of either height, in numbers. The 1 added to Y is D36 and the tile selection D37, which
R1042 marks as not in its source. (Derived from R1040, R1042.) -/
def Obligations.FirstSpriteInOamOrderWins : Prop :=
  ∀ (n sx : Nat) (row : Line) (px : Pixel) (s : State), row[sx]? = some px → sx < 256 → px.sprOcc = false →
    (renderSprites n row s)[sx]? = some (
      if sx < 8 ∧ s.ppu.mask.getLsbD 2 = false then px
      else match Spec.firstSprite n sx s with
        | none => px
        | some i =>
          if Spec.behind i s = true ∧ px.bgOpaque = true then { px with sprOcc := true }
          else { px with sprOcc := true, colour := Spec.spriteByte i (Spec.spriteColour i n sx s) s })

/-- For every state: after writing 1 and then 0 to $4016, the k-th read of $4016 (k from 0 to 7) has bit 0 equal
to button k of pad 0's snapshot, and after eight reads or any greater number the index is 8. While the strobe is
1, every read in every state gives button A and leaves the strobe at 1 and the index at 0, so after writing 1
every read, after any number of them, gives button A. The same holds for $4017 and pad 1. (Derived from R1210,
R1211.) -/
def Obligations.PadsShiftOutTheirButtons : Prop :=
  (∀ s : State,
      let held := busWrite 0x4016 0x01 s
      let armed := busWrite 0x4016 0x00 held
      let after (a : Addr) (j : Nat) (u : State) : State := (List.range j).foldl (fun u _ => (busRead a u).2) u
      (∀ (k : Nat) (h : k < 8),
        (busRead 0x4016 (after 0x4016 k armed)).1.getLsbD 0 = s.pads.snap0[k] ∧
        (busRead 0x4017 (after 0x4017 k armed)).1.getLsbD 0 = s.pads.snap1[k]) ∧
      ∀ j : Nat,
        (after 0x4016 (8 + j) armed).pads.idx0 = 8 ∧ (after 0x4017 (8 + j) armed).pads.idx1 = 8 ∧
        (busRead 0x4016 (after 0x4016 j held)).1.getLsbD 0 = s.pads.snap0[0] ∧
        (busRead 0x4017 (after 0x4017 j held)).1.getLsbD 0 = s.pads.snap1[0]) ∧
    ∀ s : State, s.pads.strobe = true →
      let r0 := busRead 0x4016 s
      let r1 := busRead 0x4017 s
      r0.1.getLsbD 0 = s.pads.snap0[0] ∧ r0.2 = { s with pads := { s.pads with idx0 := 0 }, draws := s.draws + 1 } ∧
      r1.1.getLsbD 0 = s.pads.snap1[0] ∧ r1.2 = { s with pads := { s.pads with idx1 := 0 }, draws := s.draws + 1 }

/-- A write to $4000-$4013, $4015 or $4017 appends (clock + cost, port, value) to the queue and changes nothing
else, so the $4015 read after it gives the byte it gave before: bits 0 to 3 the non-zero length counters, bit 4
DMC bytes left, bit 7 the DMC IRQ flag, bits 5 and 6 zero; the read has no effect. (States R1101, R1102.) -/
def Obligations.ApuWritesWaitInTheQueue : Prop :=
  ∀ (a : Addr) (d : Byte) (s : State), (0x4000 ≤ a.toNat ∧ a.toNat ≤ 0x4013) ∨ a = 0x4015 ∨ a = 0x4017 →
    busWrite a d s =
      { s with apu := { s.apu with queue := s.apu.queue ++ [{ ts := s.clock + s.cost, addr := a, val := d }] } } ∧
    busRead 0x4015 (busWrite a d s) = ((busRead 0x4015 s).1, busWrite a d s) ∧
    (busRead 0x4015 s).1 = BitVec.ofNat 8
      ((decide (s.apu.pulse1.length ≠ 0)).toNat + 2 * (decide (s.apu.pulse2.length ≠ 0)).toNat +
        4 * (decide (s.apu.triangle.length ≠ 0)).toNat + 8 * (decide (s.apu.noise.length ≠ 0)).toNat +
        16 * (decide (s.apu.dmc.bytesLeft ≠ 0)).toNat + 128 * s.apu.dmc.irq.toNat)

/-- For every APU state and value: the four registers of each pulse channel, of the triangle, the noise and the
DMC set the fields of their rules and nothing else; the fourth register of every channel with a length counter
loads it from the table of R1105 only while the channel is enabled, and sets the envelope's start flag or the
linear reload flag; $4009 and $400D have no effect; $4010 with bit 7 clear clears the DMC's IRQ flag; $4012 and
$4013 latch 0xC000 + 64 v and 16 v + 1; $4015 enables channel k by bit k, zeroes the length counter of a
disabled channel and no other, zeroes or restarts the DMC's bytes and clears its IRQ flag; $4017 is latched.
(Derived from R1170, R1150, R1106, R1110, R1111, R1112, R1113, R1130, R1132, R1140, R1141, R1180.) -/
def Obligations.AppliedWritesSetTheirChannels : Prop :=
  lengthTable = [10, 254, 20, 2, 40, 4, 80, 6, 160, 8, 60, 10, 14, 12, 26, 14, 12, 16, 24, 18, 48, 20, 96, 22, 192, 24,
      72, 26, 16, 28, 32, 30] ∧
    ∀ (u : Apu) (d : Byte) (ts : Nat),
      let w (a : Nat) : Apu := Apu.apply { ts := ts, addr := BitVec.ofNat 16 a, val := d } u
      (∀ k, k < 4 → w (0x4000 + k) = { u with pulse1 := Spec.pulseWritten k d u.pulse1 } ∧
        w (0x4004 + k) = { u with pulse2 := Spec.pulseWritten k d u.pulse2 }) ∧
      w 0x4008 = { u with triangle := { u.triangle with
        control := Spec.bitOf d 7, linearReload := BitVec.ofNat 7 d.toNat } } ∧
      w 0x4009 = u ∧
      w 0x400A = { u with triangle := { u.triangle with period := Spec.lowPeriod d u.triangle.period } } ∧
      w 0x400B = { u with triangle := { u.triangle with
        period := Spec.highPeriod d u.triangle.period
        length := Spec.loadedLength u.triangle.enabled d u.triangle.length, reloadFlag := true } } ∧
      w 0x400C = { u with noise := { u.noise with
        halt := Spec.bitOf d 5, constant := Spec.bitOf d 4, volume := BitVec.ofNat 4 d.toNat } } ∧
      w 0x400D = u ∧
      w 0x400E = { u with noise := { u.noise with mode := Spec.bitOf d 7, periodIdx := BitVec.ofNat 4 d.toNat } } ∧
      w 0x400F = { u with noise := { u.noise with
        length := Spec.loadedLength u.noise.enabled d u.noise.length, env := { u.noise.env with start := true } } } ∧
      w 0x4010 = { u with dmc := { u.dmc with
        irqEnable := Spec.bitOf d 7, loop := Spec.bitOf d 6, rateIdx := BitVec.ofNat 4 d.toNat
        irq := Spec.bitOf d 7 && u.dmc.irq } } ∧
      w 0x4011 = { u with dmc := { u.dmc with counter := BitVec.ofNat 6 (d.toNat / 2), lsb := Spec.bitOf d 0 } } ∧
      w 0x4012 = { u with dmc := { u.dmc with addrLatch := BitVec.ofNat 16 (0xC000 + 64 * d.toNat) } } ∧
      w 0x4013 = { u with dmc := { u.dmc with lenLatch := BitVec.ofNat 12 (16 * d.toNat + 1) } } ∧
      w 0x4015 = { u with
        pulse1 := { u.pulse1 with
          enabled := Spec.bitOf d 0, length := if Spec.bitOf d 0 then u.pulse1.length else 0 }
        pulse2 := { u.pulse2 with
          enabled := Spec.bitOf d 1, length := if Spec.bitOf d 1 then u.pulse2.length else 0 }
        triangle := { u.triangle with
          enabled := Spec.bitOf d 2, length := if Spec.bitOf d 2 then u.triangle.length else 0 }
        noise := { u.noise with
          enabled := Spec.bitOf d 3, length := if Spec.bitOf d 3 then u.noise.length else 0 }
        dmc := { u.dmc with
          irq := false
          bytesLeft := if Spec.bitOf d 4 = false then 0
            else if u.dmc.bytesLeft = 0 then u.dmc.lenLatch else u.dmc.bytesLeft
          addr := if Spec.bitOf d 4 = true ∧ u.dmc.bytesLeft = 0 then u.dmc.addrLatch else u.dmc.addr } } ∧
      w 0x4017 = { u with frameLatch := d }

/-- At sample time tk, the writes taken are exactly the longest prefix of the queue whose timestamps are
reached, they are applied first to last, and the rest of the queue stays in order. One sample takes them at tk =
cursor + CPU_CLOCK_HZ / SAMPLE_RATE and leaves the cursor there; the queue after it, the latched $4017 value and
the channels' enables are those of the writes taken. A block of n samples moves the cursor n times as far, takes
the writes due at its last sample, and hands over n samples. Times count in units of 1/SAMPLE_RATE of a cycle,
the model's choice (log 18). (Derived from R1103, R153.) -/
def Obligations.DueWritesApplyInOrder : Prop :=
  (∀ (rate tk : Nat) (q : List DeferredWrite) (u : Apu),
      Apu.applyDue rate tk q u =
        { (q.takeWhile (Spec.due rate tk)).foldl (fun v w => v.apply w) u with
          queue := q.dropWhile (Spec.due rate tk) }) ∧
    (∀ s : State, let tk := s.apu.cursor + s.params.cpuClockHz
      let taken := (s.apu.queue.takeWhile (Spec.due s.params.sampleRate tk)).foldl (fun v w => v.apply w) s.apu
      let t := (synthSample s).apu
      t.cursor = tk ∧ t.queue = s.apu.queue.dropWhile (Spec.due s.params.sampleRate tk) ∧
      t.frameLatch = taken.frameLatch ∧ t.pulse1.enabled = taken.pulse1.enabled ∧
      t.pulse2.enabled = taken.pulse2.enabled ∧ t.triangle.enabled = taken.triangle.enabled ∧
      t.noise.enabled = taken.noise.enabled) ∧
    ∀ (s : State) (n : Nat), 0 < n → let tk := s.apu.cursor + n * s.params.cpuClockHz
      (createSound n s).apu.cursor = tk ∧
      (createSound n s).apu.queue = s.apu.queue.dropWhile (Spec.due s.params.sampleRate tk) ∧
      (createSound n s).apu.sound.length = n

/-- For every state of the units: the LFSR step of a non-zero register is non-zero in both modes; the delta
counter moves by one per bit towards its polarity, or stays at 0 or 63, and the DMC output is at most 127; a
half-frame clock lowers a running length counter by one and never below 0; the envelope restarts at 15 and its
output is at most 15; a sweep leaves the period alone when muted, and never moves it out of 0 to 0x7FF. (Derived
from R1141, R1151, R1160, R1106, R1111, R1112.) -/
def Obligations.AudioUnitsStayInRange : Prop :=
  (∀ (mode : Bool) (l : BitVec 15), l ≠ 0 → lfsrStep mode l ≠ 0) ∧
    (∀ c : Dmc, c.bitsLeft ≠ 0 →
      c.shiftBit.counter.toNat = (if c.shift.toNat % 2 = 1 then min 63 (c.counter.toNat + 1) else c.counter.toNat - 1) ∧
      c.shiftBit.shift.toNat = c.shift.toNat / 2 ∧ c.shiftBit.bitsLeft.toNat = c.bitsLeft.toNat - 1) ∧
    (∀ c : Dmc, c.out ≤ 127) ∧
    (∀ (halt : Bool) (l : Byte), (lengthClock halt l).toNat = if halt then l.toNat else l.toNat - 1) ∧
    (∀ (vol : BitVec 4) (loop : Bool) (e : Envelope), (e.start = true → (e.clock vol loop).decay.toNat = 15) ∧
      (e.start = false → e.divider = 0 → (e.clock vol loop).decay.toNat =
        if 0 < e.decay.toNat then e.decay.toNat - 1 else if loop then 15 else 0) ∧
      ∀ constant, envelopeOut constant vol e ≤ 15) ∧
    ∀ p : Pulse, (p.muted = true → p.sweepClock.period = p.period) ∧
      (p.muted = false → p.swDivider = 0 → p.swEnable = true → p.swShift ≠ 0 →
        p.sweepClock.period.toNat = (if p.swNegate then p.period.toNat - p.period.toNat / 2 ^ p.swShift.toNat
          else p.period.toNat + p.period.toNat / 2 ^ p.swShift.toNat)) ∧
      (p.muted = true → p.out = 0)

/-- For every state with derived windows and at least one PRG page, and every write from 0x8000 up: on the
fixed-bank variant nothing changes; on PRG-bank-select, 0x8000-0xBFFF then shows bank d mod prgPages,
0xC000-0xFFFF the last bank, and CHR is as before; on CHR-bank-select, the two CHR windows are the halves of
bank d mod nChr8 and every PRG byte is as before. Every PRG access stays inside the image. (Derived from R1310,
R1315, R1320, R1301, R1302.) -/
def Obligations.BankSelectsMoveTheirWindows : Prop :=
  ∀ (s : State) (a : Addr) (d : Byte), s.windowsDerived → 0 < s.cart.prgPages → 0x8000 ≤ a.toNat →
    let t := busWrite a d s
    (s.mapper.regs = .fixedBank → t = s) ∧
    (∀ b, s.mapper.regs = .prgBankSelect b → ∀ c : Addr,
      (0x8000 ≤ c.toNat → c.toNat < 0xC000 → prgRead c t = Spec.prgBank (d.toNat % s.cart.prgPages) c s) ∧
      (0xC000 ≤ c.toNat → prgRead c t = Spec.prgBank (s.cart.prgPages - 1) c s) ∧
      ∀ p : BitVec 14, chrRead p t = chrRead p s) ∧
    (∀ b, s.mapper.regs = .chrBankSelect b →
      (∀ c : Addr, prgRead c t = prgRead c s) ∧
      t.mapper.win.chr0 = 8192 * (d.toNat % (chrSize s.cart / 8192)) ∧
      t.mapper.win.chr1 = 8192 * (d.toNat % (chrSize s.cart / 8192)) + 4096) ∧
    ∀ c : Addr, prgOffset c s < 16384 * s.cart.prgPages

/-- On the shift-register variant, for every shift register and count: a write from 0x8000 up with bit 7 set
empties the shift register, sets control bits 3:2 and leaves the mirroring. With bit 7 clear, bit 0 joins the
shift register at the position the count gives. If this is not the fifth bit, the count rises by one and nothing
else changes, the windows among it; if it is, the five bits (for prg the low four) go into control, chr0, chr1
or prg as the address's bits 14:13 select, the shift register is emptied and the windows are derived anew, and a
control write also sets the mirroring of its bits 1:0. So five writes from an empty shift register load the five
bit-0 values, least significant first, where the fifth address says. R1325 and R1326 mark the register select,
the bit order and the control fields as not in their source. (Derived from R1325, R1326.) -/
def Obligations.FiveSerialWritesLoadARegister : Prop :=
  ∀ (s : State) (r : Mmc1), s.mapper.regs = .shiftReg r →
    (∀ (a : Addr) (d : Byte), 0x8000 ≤ a.toNat →
      (128 ≤ d.toNat →
        busWrite a d s = setMapper (.shiftReg { r with shift := 0, count := 0, control := r.control ||| 0x0C }) s) ∧
      (d.toNat < 128 →
        let n := r.shift.toNat ||| (d.toNat % 2 * 2 ^ r.count)
        (r.count ≠ 4 → busWrite a d s =
          { s with mapper := { s.mapper with
            regs := .shiftReg { r with shift := BitVec.ofNat 5 n, count := r.count + 1 } } }) ∧
        (r.count = 4 → busWrite a d s = Spec.dispatched a n { r with shift := 0, count := 0 } s))) ∧
    ∀ (a1 a2 a3 a4 a5 : Addr) (d1 d2 d3 d4 d5 : Byte), 0x8000 ≤ a1.toNat → 0x8000 ≤ a2.toNat → 0x8000 ≤ a3.toNat →
      0x8000 ≤ a4.toNat → 0x8000 ≤ a5.toNat → r.shift = 0 → r.count = 0 → d1.toNat < 128 → d2.toNat < 128 →
      d3.toNat < 128 → d4.toNat < 128 → d5.toNat < 128 →
      Spec.serial a1 a2 a3 a4 a5 d1 d2 d3 d4 d5 s = Spec.dispatched a5 (Spec.serialValue d1 d2 d3 d4 d5) r s

/-- For every register value, with derived windows and at least one PRG page: in PRG mode 3 the low window shows
bank prg mod prgPages and the high one the last bank; in mode 2 bank 0 and bank prg mod prgPages; in modes 0 and
1 the pair of banks prg with bit 0 clear and set; CHR is two 4 KB banks with control bit 4 set and the pair chr0
with bit 0 clear and the next without it. (States R1327, R1328.) -/
def Obligations.ShiftRegisterWindowsFollowTheirModes : Prop :=
  ∀ (s : State) (r : Mmc1) (a : Addr), s.windowsDerived → 0 < s.cart.prgPages → s.mapper.regs = .shiftReg r →
    0x8000 ≤ a.toNat →
    let n := s.cart.prgPages
    let m := chrSize s.cart / 4096
    let pm := r.control.toNat / 4 % 4
    (pm = 3 → prgRead a s = Spec.prgBank (if a.toNat < 0xC000 then r.prg.toNat % n else n - 1) a s) ∧
    (pm = 2 → prgRead a s = Spec.prgBank (if a.toNat < 0xC000 then 0 else r.prg.toNat % n) a s) ∧
    (pm < 2 → prgRead a s = Spec.prgBank
      (if a.toNat < 0xC000 then r.prg.toNat / 2 * 2 % n else (r.prg.toNat / 2 * 2 + 1) % n) a s) ∧
    (r.control.toNat / 16 = 1 → s.mapper.win.chr0 = 4096 * (r.chr0.toNat % m) ∧
      s.mapper.win.chr1 = 4096 * (r.chr1.toNat % m)) ∧
    (r.control.toNat / 16 = 0 → s.mapper.win.chr0 = 4096 * (r.chr0.toNat / 2 * 2 % m) ∧
      s.mapper.win.chr1 = 4096 * ((r.chr0.toNat / 2 * 2 + 1) % m))
end

