-- ==== Sys2Proof/Laws/Memory.lean ====
section
/-!
SUPPORT. The laws of one store: a read after a write, for every list of cells (canonical or not), and that
every write keeps the canonical form and the index range.
-/

namespace Sys2Proof.Machine

/-! ### Reads -/

@[simp] theorem Memory.read_nil (a : Nat) : Memory.read [] a = Memory.unlisted := rfl

theorem Memory.read_cons (c : Host.Cell) (m : Memory) (a : Nat) :
    Memory.read (c :: m) a = if c.1 = a then c.2 else Memory.read m a := rfl

theorem Memory.read_filter (m : Memory) (p : Host.Cell → Bool) (a : Nat) (q : Bool)
    (h : ∀ c ∈ m, c.1 = a → p c = q) :
    Memory.read (m.filter p) a = if q then Memory.read m a else Memory.unlisted := by
  induction m with
  | nil => simp
  | cons c m ih =>
    have ih := ih (fun d hd => h d (List.mem_cons_of_mem _ hd))
    have hc := h c List.mem_cons_self
    by_cases hca : c.1 = a
    · cases q <;> simp_all [Memory.read_cons]
    · by_cases hp : p c <;> simp [Memory.read_cons, hca, hp, ih]

theorem Memory.read_erase (m : Memory) (a b : Nat) :
    Memory.read (m.erase a) b = if b = a then Memory.unlisted else Memory.read m b := by
  unfold Memory.erase
  rw [Memory.read_filter m _ b (decide (b ≠ a)) (by intro c _ hc; simp [hc])]
  by_cases h : b = a <;> simp [h]

theorem Memory.read_insert (m : Memory) (a b : Nat) (v : Byte) (h : ∀ c ∈ m, c.1 ≠ a) :
    Memory.read (Memory.insert m a v) b = if b = a then v else Memory.read m b := by
  induction m with
  | nil => simp [Memory.insert, Memory.read_cons, eq_comm]
  | cons c m ih =>
    have ih := ih (fun d hd => h d (List.mem_cons_of_mem _ hd))
    have hc := h c List.mem_cons_self
    unfold Memory.insert
    split
    · simp [Memory.read_cons, eq_comm]
    · by_cases hb : b = a
      · subst hb; simp [Memory.read_cons, hc, ih]
      · simp [Memory.read_cons, ih, hb]

theorem Memory.erase_ne (m : Memory) (a : Nat) : ∀ c ∈ m.erase a, c.1 ≠ a := by
  intro c hc
  simpa [Memory.erase] using (List.mem_filter.1 hc).2

/-- A read after a write: the written byte at its index, the old byte everywhere else. -/
@[simp] theorem Memory.read_write (m : Memory) (a b : Nat) (v : Byte) :
    Memory.read (m.write a v) b = if b = a then v else Memory.read m b := by
  unfold Memory.write
  split
  · next h => rw [Memory.read_erase, h]
  · rw [Memory.read_insert _ _ _ _ (Memory.erase_ne m a), Memory.read_erase]
    by_cases hb : b = a <;> simp [hb]

theorem Memory.read_append (m n : Memory) (b : Nat) (h : ∀ c ∈ m, c.1 ≠ b) :
    Memory.read (m ++ n) b = Memory.read n b := by
  induction m with
  | nil => rfl
  | cons c m ih =>
    have hc := h c List.mem_cons_self
    simp [Memory.read_cons, hc, ih (fun d hd => h d (List.mem_cons_of_mem _ hd))]

theorem Memory.read_append_left (m n : Memory) (b : Nat) (h : ∀ c ∈ n, c.1 ≠ b) :
    Memory.read (m ++ n) b = Memory.read m b := by
  induction m with
  | nil =>
    have := Memory.read_append n [] b h
    simpa using this
  | cons c m ih => simp [Memory.read_cons, ih]

/-- The cells of a run lie from its base on, in its length, and none is unlisted. -/
theorem Memory.mem_cellsFrom (vs : List Byte) (base : Nat) (c : Host.Cell) (h : c ∈ Memory.cellsFrom base vs) :
    base ≤ c.1 ∧ c.1 < base + vs.length ∧ c.2 ≠ Memory.unlisted := by
  induction vs generalizing base with
  | nil => simp [Memory.cellsFrom] at h
  | cons v vs ih =>
    unfold Memory.cellsFrom at h
    split at h
    · obtain ⟨h1, h2, h3⟩ := ih _ h
      exact ⟨by omega, by simp only [List.length_cons]; omega, h3⟩
    · rcases List.mem_cons.1 h with rfl | h
      · simp_all
      · obtain ⟨h1, h2, h3⟩ := ih _ h
        exact ⟨by omega, by simp only [List.length_cons]; omega, h3⟩

theorem Memory.read_cellsFrom (vs : List Byte) (base b : Nat) (hb : base ≤ b) :
    Memory.read (Memory.cellsFrom base vs) b = vs.getD (b - base) Memory.unlisted := by
  induction vs generalizing base with
  | nil => simp [Memory.cellsFrom]
  | cons v vs ih =>
    unfold Memory.cellsFrom
    by_cases hbb : b = base
    · subst hbb
      split
      · next h =>
        have : Memory.read (Memory.cellsFrom (b + 1) vs) b = Memory.unlisted := by
          have := Memory.read_append_left [] (Memory.cellsFrom (b + 1) vs) b
            (fun c hc => by have := Memory.mem_cellsFrom _ _ _ hc; omega)
          simpa using this
        simp [this, h]
      · simp [Memory.read_cons]
    · obtain ⟨k, hk⟩ : ∃ k, b - base = k + 1 := ⟨b - base - 1, by omega⟩
      have h1 : b - (base + 1) = k := by omega
      have h2 : base ≠ b := fun h => hbb h.symm
      split <;> simp [Memory.read_cons, h2, ih _ (by omega : base + 1 ≤ b), hk, h1]

/-- A read after a run of writes: the run's byte inside it, the old byte outside. -/
theorem Memory.read_writeRun (m : Memory) (base b : Nat) (vs : List Byte) :
    Memory.read (m.writeRun base vs) b =
      if base ≤ b ∧ b < base + vs.length then vs.getD (b - base) Memory.unlisted else Memory.read m b := by
  unfold Memory.writeRun
  have hlow : ∀ c ∈ m.filter (fun c => c.1 < base), c.1 < base := by
    intro c hc; simpa using (List.mem_filter.1 hc).2
  have hhigh : ∀ c ∈ m.filter (fun c => base + vs.length ≤ c.1), base + vs.length ≤ c.1 := by
    intro c hc; simpa using (List.mem_filter.1 hc).2
  by_cases h1 : b < base
  · rw [Memory.read_append_left _ _ _ (fun c hc => by have := hhigh c hc; omega),
      Memory.read_append_left _ _ _ (fun c hc => by have := Memory.mem_cellsFrom _ _ _ hc; omega),
      Memory.read_filter m _ b true (by intro c _ hc; simp [hc, h1])]
    simp [show ¬ base ≤ b by omega]
  · rw [List.append_assoc, Memory.read_append _ _ _ (fun c hc => by have := hlow c hc; omega)]
    by_cases h2 : b < base + vs.length
    · rw [Memory.read_append_left _ _ _ (fun c hc => by have := hhigh c hc; omega),
        Memory.read_cellsFrom _ _ _ (by omega)]
      simp [show base ≤ b by omega, h2]
    · rw [Memory.read_append _ _ _ (fun c hc => by have := Memory.mem_cellsFrom _ _ _ hc; omega),
        Memory.read_filter m _ b true (by intro c _ hc; simp [hc]; omega)]
      simp [h2]

/-! ### The canonical form -/

theorem Memory.wf_nil : Memory.wf [] := by simp [Memory.wf]

theorem Memory.wf_filter {m : Memory} (p : Host.Cell → Bool) (h : m.wf) : Memory.wf (m.filter p) :=
  ⟨h.1.filter p, fun c hc => h.2 c (List.mem_filter.1 hc).1⟩

theorem Memory.mem_insert (m : Memory) (a : Nat) (v : Byte) (c : Host.Cell) :
    c ∈ Memory.insert m a v ↔ c = (a, v) ∨ c ∈ m := by
  induction m with
  | nil => simp [Memory.insert]
  | cons d m ih =>
    unfold Memory.insert
    split
    · simp
    · simp [ih]; tauto

theorem Memory.wf_insert {m : Memory} {a : Nat} {v : Byte} (h : m.wf) (ha : ∀ c ∈ m, c.1 ≠ a)
    (hv : v ≠ Memory.unlisted) : Memory.wf (Memory.insert m a v) := by
  refine ⟨?_, fun c hc => ?_⟩
  · induction m with
    | nil => simp [Memory.insert]
    | cons d m ih =>
      have hd := List.pairwise_cons.1 h.1
      unfold Memory.insert
      split
      · next hlt =>
        refine List.pairwise_cons.2 ⟨fun c hc => ?_, h.1⟩
        rcases List.mem_cons.1 hc with rfl | hc
        · exact hlt
        · exact Nat.lt_trans hlt (hd.1 c hc)
      · next hlt =>
        refine List.pairwise_cons.2
          ⟨fun c hc => ?_, ih ⟨hd.2, fun c hc => h.2 c (List.mem_cons_of_mem _ hc)⟩
            (fun c hc => ha c (List.mem_cons_of_mem _ hc))⟩
        rcases (Memory.mem_insert m a v c).1 hc with rfl | hc
        · have := ha d List.mem_cons_self
          exact Nat.lt_of_le_of_ne (Nat.le_of_not_lt hlt) this
        · exact hd.1 c hc
  · rcases (Memory.mem_insert m a v c).1 hc with rfl | hc
    · exact hv
    · exact h.2 c hc

/-- Every write keeps the canonical form. -/
theorem Memory.wf_write {m : Memory} (a : Nat) (v : Byte) (h : m.wf) : (m.write a v).wf := by
  unfold Memory.write
  split
  · exact Memory.wf_filter _ h
  · next hv => exact Memory.wf_insert (Memory.wf_filter _ h) (Memory.erase_ne m a) hv

theorem Memory.pairwise_cellsFrom (vs : List Byte) (base : Nat) :
    (Memory.cellsFrom base vs).Pairwise (fun c d => c.1 < d.1) := by
  induction vs generalizing base with
  | nil => simp [Memory.cellsFrom]
  | cons v vs ih =>
    unfold Memory.cellsFrom
    split
    · exact ih _
    · exact List.pairwise_cons.2
        ⟨fun c hc => by have := Memory.mem_cellsFrom _ _ _ hc; dsimp; omega, ih _⟩

/-- Every run of writes keeps the canonical form. -/
theorem Memory.wf_writeRun {m : Memory} (base : Nat) (vs : List Byte) (h : m.wf) : (m.writeRun base vs).wf := by
  have hlow : ∀ c ∈ m.filter (fun c => c.1 < base), c.1 < base := by
    intro c hc; simpa using (List.mem_filter.1 hc).2
  have hhigh : ∀ c ∈ m.filter (fun c => base + vs.length ≤ c.1), base + vs.length ≤ c.1 := by
    intro c hc; simpa using (List.mem_filter.1 hc).2
  refine ⟨?_, ?_⟩
  · refine List.pairwise_append.2 ⟨List.pairwise_append.2
      ⟨h.1.filter _, Memory.pairwise_cellsFrom _ _, ?_⟩, h.1.filter _, ?_⟩
    · intro c hc d hd
      have := hlow c hc
      have := Memory.mem_cellsFrom _ _ _ hd
      omega
    · intro c hc d hd
      have hd := hhigh d hd
      rcases List.mem_append.1 hc with hc | hc
      · have := hlow c hc; omega
      · have := Memory.mem_cellsFrom _ _ _ hc; omega
  · intro c hc
    rcases List.mem_append.1 hc with hc | hc
    · rcases List.mem_append.1 hc with hc | hc
      · exact h.2 c (List.mem_filter.1 hc).1
      · exact (Memory.mem_cellsFrom _ _ _ hc).2.2
    · exact h.2 c (List.mem_filter.1 hc).1

/-! ### The index range -/

/-- A write inside the range keeps it. -/
theorem Memory.within_write {m : Memory} {size : Nat} (a : Nat) (v : Byte) (ha : a < size) (h : m.within size) :
    (m.write a v).within size := by
  intro c hc
  unfold Memory.write at hc
  split at hc
  · exact h c (List.mem_filter.1 hc).1
  · rcases (Memory.mem_insert _ a v c).1 hc with rfl | hc
    · exact ha
    · exact h c (List.mem_filter.1 hc).1

/-- A run of writes inside the range keeps it. -/
theorem Memory.within_writeRun {m : Memory} {size : Nat} (base : Nat) (vs : List Byte)
    (ha : base + vs.length ≤ size) (h : m.within size) : (m.writeRun base vs).within size := by
  intro c hc
  rcases List.mem_append.1 hc with hc | hc
  · rcases List.mem_append.1 hc with hc | hc
    · exact h c (List.mem_filter.1 hc).1
    · have := Memory.mem_cellsFrom _ _ _ hc; omega
  · exact h c (List.mem_filter.1 hc).1

/-- Two canonical stores that read alike everywhere are the same list. -/
theorem Memory.ext_of_read {m n : Memory} (hm : m.wf) (hn : n.wf) (h : ∀ a, m.read a = n.read a) : m = n := by
  induction m generalizing n with
  | nil =>
    cases n with
    | nil => rfl
    | cons d n =>
      have := h d.1
      simp [Memory.read_cons] at this
      exact absurd this.symm (hn.2 d List.mem_cons_self)
  | cons c m ih =>
    have hc := List.pairwise_cons.1 hm.1
    cases n with
    | nil =>
      have := h c.1
      simp [Memory.read_cons] at this
      exact absurd this (hm.2 c List.mem_cons_self)
    | cons d n =>
      have hd := List.pairwise_cons.1 hn.1
      have out : ∀ (l : Memory) (k : Nat), (∀ e ∈ l, k < e.1) → l.read k = Memory.unlisted := by
        intro l k hl
        have := Memory.read_append_left [] l k (fun e he => by have := hl e he; omega)
        simpa using this
      have hcd : c.1 = d.1 := by
        rcases Nat.lt_trichotomy c.1 d.1 with hlt | heq | hgt
        · have h1 := h c.1
          rw [out (d :: n) c.1 (by
            intro e he
            rcases List.mem_cons.1 he with rfl | he
            · exact hlt
            · exact Nat.lt_trans hlt (hd.1 e he))] at h1
          simp [Memory.read_cons] at h1
          exact absurd h1 (hm.2 c List.mem_cons_self)
        · exact heq
        · have h1 := h d.1
          rw [out (c :: m) d.1 (by
            intro e he
            rcases List.mem_cons.1 he with rfl | he
            · exact hgt
            · exact Nat.lt_trans hgt (hc.1 e he))] at h1
          simp [Memory.read_cons] at h1
          exact absurd h1.symm (hn.2 d List.mem_cons_self)
      have hv : c.2 = d.2 := by
        have h1 := h c.1
        simpa [Memory.read_cons, hcd] using h1
      have : c = d := Prod.ext hcd hv
      subst this
      congr 1
      refine ih ⟨hc.2, fun e he => hm.2 e (List.mem_cons_of_mem _ he)⟩
        ⟨hd.2, fun e he => hn.2 e (List.mem_cons_of_mem _ he)⟩ (fun a => ?_)
      have h1 := h a
      simp only [Memory.read_cons] at h1
      by_cases ha : c.1 = a
      · rw [out m a (fun e he => ha ▸ hc.1 e he), out n a (fun e he => ha ▸ hd.1 e he)]
      · simpa [ha] using h1

end Sys2Proof.Machine
end

