-- ==== Sys2Proof/Laws/State.lean ====
section
/-!
SUPPORT. Each field after each named update of State: the updated field is the new value, every other field
is as before. With these as simp lemmas no proof unfolds an update.
-/

namespace Sys2Proof.Machine

/-! ### setA -/

@[simp] theorem State.setA_a (v : Byte) (s : State) : (s.setA v).a = v := rfl
@[simp] theorem State.setA_x (v : Byte) (s : State) : (s.setA v).x = s.x := rfl
@[simp] theorem State.setA_y (v : Byte) (s : State) : (s.setA v).y = s.y := rfl
@[simp] theorem State.setA_sp (v : Byte) (s : State) : (s.setA v).sp = s.sp := rfl
@[simp] theorem State.setA_pc (v : Byte) (s : State) : (s.setA v).pc = s.pc := rfl
@[simp] theorem State.setA_flags (v : Byte) (s : State) : (s.setA v).flags = s.flags := rfl
@[simp] theorem State.setA_pending (v : Byte) (s : State) : (s.setA v).pending = s.pending := rfl
@[simp] theorem State.setA_remaining (v : Byte) (s : State) : (s.setA v).remaining = s.remaining := rfl
@[simp] theorem State.setA_clock (v : Byte) (s : State) : (s.setA v).clock = s.clock := rfl
@[simp] theorem State.setA_cost (v : Byte) (s : State) : (s.setA v).cost = s.cost := rfl
@[simp] theorem State.setA_diag (v : Byte) (s : State) : (s.setA v).diag = s.diag := rfl
@[simp] theorem State.setA_ram (v : Byte) (s : State) : (s.setA v).ram = s.ram := rfl
@[simp] theorem State.setA_sram (v : Byte) (s : State) : (s.setA v).sram = s.sram := rfl
@[simp] theorem State.setA_ppu (v : Byte) (s : State) : (s.setA v).ppu = s.ppu := rfl
@[simp] theorem State.setA_apu (v : Byte) (s : State) : (s.setA v).apu = s.apu := rfl
@[simp] theorem State.setA_pads (v : Byte) (s : State) : (s.setA v).pads = s.pads := rfl
@[simp] theorem State.setA_frame (v : Byte) (s : State) : (s.setA v).frame = s.frame := rfl
@[simp] theorem State.setA_mapper (v : Byte) (s : State) : (s.setA v).mapper = s.mapper := rfl
@[simp] theorem State.setA_cart (v : Byte) (s : State) : (s.setA v).cart = s.cart := rfl
@[simp] theorem State.setA_params (v : Byte) (s : State) : (s.setA v).params = s.params := rfl
@[simp] theorem State.setA_draws (v : Byte) (s : State) : (s.setA v).draws = s.draws := rfl

/-! ### setX -/

@[simp] theorem State.setX_a (v : Byte) (s : State) : (s.setX v).a = s.a := rfl
@[simp] theorem State.setX_x (v : Byte) (s : State) : (s.setX v).x = v := rfl
@[simp] theorem State.setX_y (v : Byte) (s : State) : (s.setX v).y = s.y := rfl
@[simp] theorem State.setX_sp (v : Byte) (s : State) : (s.setX v).sp = s.sp := rfl
@[simp] theorem State.setX_pc (v : Byte) (s : State) : (s.setX v).pc = s.pc := rfl
@[simp] theorem State.setX_flags (v : Byte) (s : State) : (s.setX v).flags = s.flags := rfl
@[simp] theorem State.setX_pending (v : Byte) (s : State) : (s.setX v).pending = s.pending := rfl
@[simp] theorem State.setX_remaining (v : Byte) (s : State) : (s.setX v).remaining = s.remaining := rfl
@[simp] theorem State.setX_clock (v : Byte) (s : State) : (s.setX v).clock = s.clock := rfl
@[simp] theorem State.setX_cost (v : Byte) (s : State) : (s.setX v).cost = s.cost := rfl
@[simp] theorem State.setX_diag (v : Byte) (s : State) : (s.setX v).diag = s.diag := rfl
@[simp] theorem State.setX_ram (v : Byte) (s : State) : (s.setX v).ram = s.ram := rfl
@[simp] theorem State.setX_sram (v : Byte) (s : State) : (s.setX v).sram = s.sram := rfl
@[simp] theorem State.setX_ppu (v : Byte) (s : State) : (s.setX v).ppu = s.ppu := rfl
@[simp] theorem State.setX_apu (v : Byte) (s : State) : (s.setX v).apu = s.apu := rfl
@[simp] theorem State.setX_pads (v : Byte) (s : State) : (s.setX v).pads = s.pads := rfl
@[simp] theorem State.setX_frame (v : Byte) (s : State) : (s.setX v).frame = s.frame := rfl
@[simp] theorem State.setX_mapper (v : Byte) (s : State) : (s.setX v).mapper = s.mapper := rfl
@[simp] theorem State.setX_cart (v : Byte) (s : State) : (s.setX v).cart = s.cart := rfl
@[simp] theorem State.setX_params (v : Byte) (s : State) : (s.setX v).params = s.params := rfl
@[simp] theorem State.setX_draws (v : Byte) (s : State) : (s.setX v).draws = s.draws := rfl

/-! ### setY -/

@[simp] theorem State.setY_a (v : Byte) (s : State) : (s.setY v).a = s.a := rfl
@[simp] theorem State.setY_x (v : Byte) (s : State) : (s.setY v).x = s.x := rfl
@[simp] theorem State.setY_y (v : Byte) (s : State) : (s.setY v).y = v := rfl
@[simp] theorem State.setY_sp (v : Byte) (s : State) : (s.setY v).sp = s.sp := rfl
@[simp] theorem State.setY_pc (v : Byte) (s : State) : (s.setY v).pc = s.pc := rfl
@[simp] theorem State.setY_flags (v : Byte) (s : State) : (s.setY v).flags = s.flags := rfl
@[simp] theorem State.setY_pending (v : Byte) (s : State) : (s.setY v).pending = s.pending := rfl
@[simp] theorem State.setY_remaining (v : Byte) (s : State) : (s.setY v).remaining = s.remaining := rfl
@[simp] theorem State.setY_clock (v : Byte) (s : State) : (s.setY v).clock = s.clock := rfl
@[simp] theorem State.setY_cost (v : Byte) (s : State) : (s.setY v).cost = s.cost := rfl
@[simp] theorem State.setY_diag (v : Byte) (s : State) : (s.setY v).diag = s.diag := rfl
@[simp] theorem State.setY_ram (v : Byte) (s : State) : (s.setY v).ram = s.ram := rfl
@[simp] theorem State.setY_sram (v : Byte) (s : State) : (s.setY v).sram = s.sram := rfl
@[simp] theorem State.setY_ppu (v : Byte) (s : State) : (s.setY v).ppu = s.ppu := rfl
@[simp] theorem State.setY_apu (v : Byte) (s : State) : (s.setY v).apu = s.apu := rfl
@[simp] theorem State.setY_pads (v : Byte) (s : State) : (s.setY v).pads = s.pads := rfl
@[simp] theorem State.setY_frame (v : Byte) (s : State) : (s.setY v).frame = s.frame := rfl
@[simp] theorem State.setY_mapper (v : Byte) (s : State) : (s.setY v).mapper = s.mapper := rfl
@[simp] theorem State.setY_cart (v : Byte) (s : State) : (s.setY v).cart = s.cart := rfl
@[simp] theorem State.setY_params (v : Byte) (s : State) : (s.setY v).params = s.params := rfl
@[simp] theorem State.setY_draws (v : Byte) (s : State) : (s.setY v).draws = s.draws := rfl

/-! ### setSp -/

@[simp] theorem State.setSp_a (v : Byte) (s : State) : (s.setSp v).a = s.a := rfl
@[simp] theorem State.setSp_x (v : Byte) (s : State) : (s.setSp v).x = s.x := rfl
@[simp] theorem State.setSp_y (v : Byte) (s : State) : (s.setSp v).y = s.y := rfl
@[simp] theorem State.setSp_sp (v : Byte) (s : State) : (s.setSp v).sp = v := rfl
@[simp] theorem State.setSp_pc (v : Byte) (s : State) : (s.setSp v).pc = s.pc := rfl
@[simp] theorem State.setSp_flags (v : Byte) (s : State) : (s.setSp v).flags = s.flags := rfl
@[simp] theorem State.setSp_pending (v : Byte) (s : State) : (s.setSp v).pending = s.pending := rfl
@[simp] theorem State.setSp_remaining (v : Byte) (s : State) : (s.setSp v).remaining = s.remaining := rfl
@[simp] theorem State.setSp_clock (v : Byte) (s : State) : (s.setSp v).clock = s.clock := rfl
@[simp] theorem State.setSp_cost (v : Byte) (s : State) : (s.setSp v).cost = s.cost := rfl
@[simp] theorem State.setSp_diag (v : Byte) (s : State) : (s.setSp v).diag = s.diag := rfl
@[simp] theorem State.setSp_ram (v : Byte) (s : State) : (s.setSp v).ram = s.ram := rfl
@[simp] theorem State.setSp_sram (v : Byte) (s : State) : (s.setSp v).sram = s.sram := rfl
@[simp] theorem State.setSp_ppu (v : Byte) (s : State) : (s.setSp v).ppu = s.ppu := rfl
@[simp] theorem State.setSp_apu (v : Byte) (s : State) : (s.setSp v).apu = s.apu := rfl
@[simp] theorem State.setSp_pads (v : Byte) (s : State) : (s.setSp v).pads = s.pads := rfl
@[simp] theorem State.setSp_frame (v : Byte) (s : State) : (s.setSp v).frame = s.frame := rfl
@[simp] theorem State.setSp_mapper (v : Byte) (s : State) : (s.setSp v).mapper = s.mapper := rfl
@[simp] theorem State.setSp_cart (v : Byte) (s : State) : (s.setSp v).cart = s.cart := rfl
@[simp] theorem State.setSp_params (v : Byte) (s : State) : (s.setSp v).params = s.params := rfl
@[simp] theorem State.setSp_draws (v : Byte) (s : State) : (s.setSp v).draws = s.draws := rfl

/-! ### setPc -/

@[simp] theorem State.setPc_a (v : Addr) (s : State) : (s.setPc v).a = s.a := rfl
@[simp] theorem State.setPc_x (v : Addr) (s : State) : (s.setPc v).x = s.x := rfl
@[simp] theorem State.setPc_y (v : Addr) (s : State) : (s.setPc v).y = s.y := rfl
@[simp] theorem State.setPc_sp (v : Addr) (s : State) : (s.setPc v).sp = s.sp := rfl
@[simp] theorem State.setPc_pc (v : Addr) (s : State) : (s.setPc v).pc = v := rfl
@[simp] theorem State.setPc_flags (v : Addr) (s : State) : (s.setPc v).flags = s.flags := rfl
@[simp] theorem State.setPc_pending (v : Addr) (s : State) : (s.setPc v).pending = s.pending := rfl
@[simp] theorem State.setPc_remaining (v : Addr) (s : State) : (s.setPc v).remaining = s.remaining := rfl
@[simp] theorem State.setPc_clock (v : Addr) (s : State) : (s.setPc v).clock = s.clock := rfl
@[simp] theorem State.setPc_cost (v : Addr) (s : State) : (s.setPc v).cost = s.cost := rfl
@[simp] theorem State.setPc_diag (v : Addr) (s : State) : (s.setPc v).diag = s.diag := rfl
@[simp] theorem State.setPc_ram (v : Addr) (s : State) : (s.setPc v).ram = s.ram := rfl
@[simp] theorem State.setPc_sram (v : Addr) (s : State) : (s.setPc v).sram = s.sram := rfl
@[simp] theorem State.setPc_ppu (v : Addr) (s : State) : (s.setPc v).ppu = s.ppu := rfl
@[simp] theorem State.setPc_apu (v : Addr) (s : State) : (s.setPc v).apu = s.apu := rfl
@[simp] theorem State.setPc_pads (v : Addr) (s : State) : (s.setPc v).pads = s.pads := rfl
@[simp] theorem State.setPc_frame (v : Addr) (s : State) : (s.setPc v).frame = s.frame := rfl
@[simp] theorem State.setPc_mapper (v : Addr) (s : State) : (s.setPc v).mapper = s.mapper := rfl
@[simp] theorem State.setPc_cart (v : Addr) (s : State) : (s.setPc v).cart = s.cart := rfl
@[simp] theorem State.setPc_params (v : Addr) (s : State) : (s.setPc v).params = s.params := rfl
@[simp] theorem State.setPc_draws (v : Addr) (s : State) : (s.setPc v).draws = s.draws := rfl

/-! ### setFlags -/

@[simp] theorem State.setFlags_a (v : Flags) (s : State) : (s.setFlags v).a = s.a := rfl
@[simp] theorem State.setFlags_x (v : Flags) (s : State) : (s.setFlags v).x = s.x := rfl
@[simp] theorem State.setFlags_y (v : Flags) (s : State) : (s.setFlags v).y = s.y := rfl
@[simp] theorem State.setFlags_sp (v : Flags) (s : State) : (s.setFlags v).sp = s.sp := rfl
@[simp] theorem State.setFlags_pc (v : Flags) (s : State) : (s.setFlags v).pc = s.pc := rfl
@[simp] theorem State.setFlags_flags (v : Flags) (s : State) : (s.setFlags v).flags = v := rfl
@[simp] theorem State.setFlags_pending (v : Flags) (s : State) : (s.setFlags v).pending = s.pending := rfl
@[simp] theorem State.setFlags_remaining (v : Flags) (s : State) : (s.setFlags v).remaining = s.remaining := rfl
@[simp] theorem State.setFlags_clock (v : Flags) (s : State) : (s.setFlags v).clock = s.clock := rfl
@[simp] theorem State.setFlags_cost (v : Flags) (s : State) : (s.setFlags v).cost = s.cost := rfl
@[simp] theorem State.setFlags_diag (v : Flags) (s : State) : (s.setFlags v).diag = s.diag := rfl
@[simp] theorem State.setFlags_ram (v : Flags) (s : State) : (s.setFlags v).ram = s.ram := rfl
@[simp] theorem State.setFlags_sram (v : Flags) (s : State) : (s.setFlags v).sram = s.sram := rfl
@[simp] theorem State.setFlags_ppu (v : Flags) (s : State) : (s.setFlags v).ppu = s.ppu := rfl
@[simp] theorem State.setFlags_apu (v : Flags) (s : State) : (s.setFlags v).apu = s.apu := rfl
@[simp] theorem State.setFlags_pads (v : Flags) (s : State) : (s.setFlags v).pads = s.pads := rfl
@[simp] theorem State.setFlags_frame (v : Flags) (s : State) : (s.setFlags v).frame = s.frame := rfl
@[simp] theorem State.setFlags_mapper (v : Flags) (s : State) : (s.setFlags v).mapper = s.mapper := rfl
@[simp] theorem State.setFlags_cart (v : Flags) (s : State) : (s.setFlags v).cart = s.cart := rfl
@[simp] theorem State.setFlags_params (v : Flags) (s : State) : (s.setFlags v).params = s.params := rfl
@[simp] theorem State.setFlags_draws (v : Flags) (s : State) : (s.setFlags v).draws = s.draws := rfl

/-! ### setPending -/

@[simp] theorem State.setPending_a (v : Option Interrupt) (s : State) : (s.setPending v).a = s.a := rfl
@[simp] theorem State.setPending_x (v : Option Interrupt) (s : State) : (s.setPending v).x = s.x := rfl
@[simp] theorem State.setPending_y (v : Option Interrupt) (s : State) : (s.setPending v).y = s.y := rfl
@[simp] theorem State.setPending_sp (v : Option Interrupt) (s : State) : (s.setPending v).sp = s.sp := rfl
@[simp] theorem State.setPending_pc (v : Option Interrupt) (s : State) : (s.setPending v).pc = s.pc := rfl
@[simp] theorem State.setPending_flags (v : Option Interrupt) (s : State) : (s.setPending v).flags = s.flags := rfl
@[simp] theorem State.setPending_pending (v : Option Interrupt) (s : State) : (s.setPending v).pending = v := rfl
@[simp] theorem State.setPending_remaining (v : Option Interrupt) (s : State) : (s.setPending v).remaining = s.remaining := rfl
@[simp] theorem State.setPending_clock (v : Option Interrupt) (s : State) : (s.setPending v).clock = s.clock := rfl
@[simp] theorem State.setPending_cost (v : Option Interrupt) (s : State) : (s.setPending v).cost = s.cost := rfl
@[simp] theorem State.setPending_diag (v : Option Interrupt) (s : State) : (s.setPending v).diag = s.diag := rfl
@[simp] theorem State.setPending_ram (v : Option Interrupt) (s : State) : (s.setPending v).ram = s.ram := rfl
@[simp] theorem State.setPending_sram (v : Option Interrupt) (s : State) : (s.setPending v).sram = s.sram := rfl
@[simp] theorem State.setPending_ppu (v : Option Interrupt) (s : State) : (s.setPending v).ppu = s.ppu := rfl
@[simp] theorem State.setPending_apu (v : Option Interrupt) (s : State) : (s.setPending v).apu = s.apu := rfl
@[simp] theorem State.setPending_pads (v : Option Interrupt) (s : State) : (s.setPending v).pads = s.pads := rfl
@[simp] theorem State.setPending_frame (v : Option Interrupt) (s : State) : (s.setPending v).frame = s.frame := rfl
@[simp] theorem State.setPending_mapper (v : Option Interrupt) (s : State) : (s.setPending v).mapper = s.mapper := rfl
@[simp] theorem State.setPending_cart (v : Option Interrupt) (s : State) : (s.setPending v).cart = s.cart := rfl
@[simp] theorem State.setPending_params (v : Option Interrupt) (s : State) : (s.setPending v).params = s.params := rfl
@[simp] theorem State.setPending_draws (v : Option Interrupt) (s : State) : (s.setPending v).draws = s.draws := rfl

/-! ### charge -/

@[simp] theorem State.charge_a (v : Nat) (s : State) : (s.charge v).a = s.a := rfl
@[simp] theorem State.charge_x (v : Nat) (s : State) : (s.charge v).x = s.x := rfl
@[simp] theorem State.charge_y (v : Nat) (s : State) : (s.charge v).y = s.y := rfl
@[simp] theorem State.charge_sp (v : Nat) (s : State) : (s.charge v).sp = s.sp := rfl
@[simp] theorem State.charge_pc (v : Nat) (s : State) : (s.charge v).pc = s.pc := rfl
@[simp] theorem State.charge_flags (v : Nat) (s : State) : (s.charge v).flags = s.flags := rfl
@[simp] theorem State.charge_pending (v : Nat) (s : State) : (s.charge v).pending = s.pending := rfl
@[simp] theorem State.charge_remaining (v : Nat) (s : State) : (s.charge v).remaining = s.remaining := rfl
@[simp] theorem State.charge_clock (v : Nat) (s : State) : (s.charge v).clock = s.clock := rfl
@[simp] theorem State.charge_cost (v : Nat) (s : State) : (s.charge v).cost = s.cost + v := rfl
@[simp] theorem State.charge_diag (v : Nat) (s : State) : (s.charge v).diag = s.diag := rfl
@[simp] theorem State.charge_ram (v : Nat) (s : State) : (s.charge v).ram = s.ram := rfl
@[simp] theorem State.charge_sram (v : Nat) (s : State) : (s.charge v).sram = s.sram := rfl
@[simp] theorem State.charge_ppu (v : Nat) (s : State) : (s.charge v).ppu = s.ppu := rfl
@[simp] theorem State.charge_apu (v : Nat) (s : State) : (s.charge v).apu = s.apu := rfl
@[simp] theorem State.charge_pads (v : Nat) (s : State) : (s.charge v).pads = s.pads := rfl
@[simp] theorem State.charge_frame (v : Nat) (s : State) : (s.charge v).frame = s.frame := rfl
@[simp] theorem State.charge_mapper (v : Nat) (s : State) : (s.charge v).mapper = s.mapper := rfl
@[simp] theorem State.charge_cart (v : Nat) (s : State) : (s.charge v).cart = s.cart := rfl
@[simp] theorem State.charge_params (v : Nat) (s : State) : (s.charge v).params = s.params := rfl
@[simp] theorem State.charge_draws (v : Nat) (s : State) : (s.charge v).draws = s.draws := rfl

/-! ### setApu -/

@[simp] theorem State.setApu_a (v : Apu) (s : State) : (s.setApu v).a = s.a := rfl
@[simp] theorem State.setApu_x (v : Apu) (s : State) : (s.setApu v).x = s.x := rfl
@[simp] theorem State.setApu_y (v : Apu) (s : State) : (s.setApu v).y = s.y := rfl
@[simp] theorem State.setApu_sp (v : Apu) (s : State) : (s.setApu v).sp = s.sp := rfl
@[simp] theorem State.setApu_pc (v : Apu) (s : State) : (s.setApu v).pc = s.pc := rfl
@[simp] theorem State.setApu_flags (v : Apu) (s : State) : (s.setApu v).flags = s.flags := rfl
@[simp] theorem State.setApu_pending (v : Apu) (s : State) : (s.setApu v).pending = s.pending := rfl
@[simp] theorem State.setApu_remaining (v : Apu) (s : State) : (s.setApu v).remaining = s.remaining := rfl
@[simp] theorem State.setApu_clock (v : Apu) (s : State) : (s.setApu v).clock = s.clock := rfl
@[simp] theorem State.setApu_cost (v : Apu) (s : State) : (s.setApu v).cost = s.cost := rfl
@[simp] theorem State.setApu_diag (v : Apu) (s : State) : (s.setApu v).diag = s.diag := rfl
@[simp] theorem State.setApu_ram (v : Apu) (s : State) : (s.setApu v).ram = s.ram := rfl
@[simp] theorem State.setApu_sram (v : Apu) (s : State) : (s.setApu v).sram = s.sram := rfl
@[simp] theorem State.setApu_ppu (v : Apu) (s : State) : (s.setApu v).ppu = s.ppu := rfl
@[simp] theorem State.setApu_apu (v : Apu) (s : State) : (s.setApu v).apu = v := rfl
@[simp] theorem State.setApu_pads (v : Apu) (s : State) : (s.setApu v).pads = s.pads := rfl
@[simp] theorem State.setApu_frame (v : Apu) (s : State) : (s.setApu v).frame = s.frame := rfl
@[simp] theorem State.setApu_mapper (v : Apu) (s : State) : (s.setApu v).mapper = s.mapper := rfl
@[simp] theorem State.setApu_cart (v : Apu) (s : State) : (s.setApu v).cart = s.cart := rfl
@[simp] theorem State.setApu_params (v : Apu) (s : State) : (s.setApu v).params = s.params := rfl
@[simp] theorem State.setApu_draws (v : Apu) (s : State) : (s.setApu v).draws = s.draws := rfl

/-! ### setPpu -/

@[simp] theorem State.setPpu_a (v : Ppu) (s : State) : (s.setPpu v).a = s.a := rfl
@[simp] theorem State.setPpu_x (v : Ppu) (s : State) : (s.setPpu v).x = s.x := rfl
@[simp] theorem State.setPpu_y (v : Ppu) (s : State) : (s.setPpu v).y = s.y := rfl
@[simp] theorem State.setPpu_sp (v : Ppu) (s : State) : (s.setPpu v).sp = s.sp := rfl
@[simp] theorem State.setPpu_pc (v : Ppu) (s : State) : (s.setPpu v).pc = s.pc := rfl
@[simp] theorem State.setPpu_flags (v : Ppu) (s : State) : (s.setPpu v).flags = s.flags := rfl
@[simp] theorem State.setPpu_pending (v : Ppu) (s : State) : (s.setPpu v).pending = s.pending := rfl
@[simp] theorem State.setPpu_remaining (v : Ppu) (s : State) : (s.setPpu v).remaining = s.remaining := rfl
@[simp] theorem State.setPpu_clock (v : Ppu) (s : State) : (s.setPpu v).clock = s.clock := rfl
@[simp] theorem State.setPpu_cost (v : Ppu) (s : State) : (s.setPpu v).cost = s.cost := rfl
@[simp] theorem State.setPpu_diag (v : Ppu) (s : State) : (s.setPpu v).diag = s.diag := rfl
@[simp] theorem State.setPpu_ram (v : Ppu) (s : State) : (s.setPpu v).ram = s.ram := rfl
@[simp] theorem State.setPpu_sram (v : Ppu) (s : State) : (s.setPpu v).sram = s.sram := rfl
@[simp] theorem State.setPpu_ppu (v : Ppu) (s : State) : (s.setPpu v).ppu = v := rfl
@[simp] theorem State.setPpu_apu (v : Ppu) (s : State) : (s.setPpu v).apu = s.apu := rfl
@[simp] theorem State.setPpu_pads (v : Ppu) (s : State) : (s.setPpu v).pads = s.pads := rfl
@[simp] theorem State.setPpu_frame (v : Ppu) (s : State) : (s.setPpu v).frame = s.frame := rfl
@[simp] theorem State.setPpu_mapper (v : Ppu) (s : State) : (s.setPpu v).mapper = s.mapper := rfl
@[simp] theorem State.setPpu_cart (v : Ppu) (s : State) : (s.setPpu v).cart = s.cart := rfl
@[simp] theorem State.setPpu_params (v : Ppu) (s : State) : (s.setPpu v).params = s.params := rfl
@[simp] theorem State.setPpu_draws (v : Ppu) (s : State) : (s.setPpu v).draws = s.draws := rfl

/-! ### setFrame -/

@[simp] theorem State.setFrame_a (v : Frame) (s : State) : (s.setFrame v).a = s.a := rfl
@[simp] theorem State.setFrame_x (v : Frame) (s : State) : (s.setFrame v).x = s.x := rfl
@[simp] theorem State.setFrame_y (v : Frame) (s : State) : (s.setFrame v).y = s.y := rfl
@[simp] theorem State.setFrame_sp (v : Frame) (s : State) : (s.setFrame v).sp = s.sp := rfl
@[simp] theorem State.setFrame_pc (v : Frame) (s : State) : (s.setFrame v).pc = s.pc := rfl
@[simp] theorem State.setFrame_flags (v : Frame) (s : State) : (s.setFrame v).flags = s.flags := rfl
@[simp] theorem State.setFrame_pending (v : Frame) (s : State) : (s.setFrame v).pending = s.pending := rfl
@[simp] theorem State.setFrame_remaining (v : Frame) (s : State) : (s.setFrame v).remaining = s.remaining := rfl
@[simp] theorem State.setFrame_clock (v : Frame) (s : State) : (s.setFrame v).clock = s.clock := rfl
@[simp] theorem State.setFrame_cost (v : Frame) (s : State) : (s.setFrame v).cost = s.cost := rfl
@[simp] theorem State.setFrame_diag (v : Frame) (s : State) : (s.setFrame v).diag = s.diag := rfl
@[simp] theorem State.setFrame_ram (v : Frame) (s : State) : (s.setFrame v).ram = s.ram := rfl
@[simp] theorem State.setFrame_sram (v : Frame) (s : State) : (s.setFrame v).sram = s.sram := rfl
@[simp] theorem State.setFrame_ppu (v : Frame) (s : State) : (s.setFrame v).ppu = s.ppu := rfl
@[simp] theorem State.setFrame_apu (v : Frame) (s : State) : (s.setFrame v).apu = s.apu := rfl
@[simp] theorem State.setFrame_pads (v : Frame) (s : State) : (s.setFrame v).pads = s.pads := rfl
@[simp] theorem State.setFrame_frame (v : Frame) (s : State) : (s.setFrame v).frame = v := rfl
@[simp] theorem State.setFrame_mapper (v : Frame) (s : State) : (s.setFrame v).mapper = s.mapper := rfl
@[simp] theorem State.setFrame_cart (v : Frame) (s : State) : (s.setFrame v).cart = s.cart := rfl
@[simp] theorem State.setFrame_params (v : Frame) (s : State) : (s.setFrame v).params = s.params := rfl
@[simp] theorem State.setFrame_draws (v : Frame) (s : State) : (s.setFrame v).draws = s.draws := rfl

end Sys2Proof.Machine
end

