-- ==== Sys2Proof/Laws/Bus.lean ====
section
/-!
SUPPORT. What one bus access can do: a read (its value in plain memory, and everything it can change), a write
(everything it can change), the fields neither touches, and that both keep every store canonical and in
range.
-/

namespace Sys2Proof.Machine

/-! ### Draws -/

@[simp] theorem drawByte_fst (s : State) : (drawByte s).1 = Config.freeByte s.draws := rfl

@[simp] theorem drawByte_snd (s : State) : (drawByte s).2 = { s with draws := s.draws + 1 } := rfl

/-! ### Reads -/

/-- Where `peek` gives a byte, a bus read gives that byte and leaves the state as it is. -/
theorem busRead_of_peek {a : Addr} {s : State} {b : Byte} (h : peek a s = some b) : busRead a s = (b, s) := by
  unfold peek at h
  unfold busRead
  by_cases h1 : a.toNat < 0x2000
  · simpa [h1] using h
  · by_cases h2 : a.toNat < 0x4020
    · simp [h1, h2] at h
    · have h3 : ¬ a.toNat < 0x4000 := by omega
      by_cases h4 : a.toNat < 0x6000
      · simpa [h1, h2, h3, h4] using h
      · by_cases h5 : a.toNat < 0x8000
        · cases h6 : s.cart.hasSram <;> simp [h1, h2, h3, h4, h5, h6] at h ⊢
          exact h
        · simpa [h1, h2, h3, h4, h5] using h

/-- A read of RAM. -/
theorem busRead_ram {a : Addr} (s : State) (h : a.toNat < 0x2000) : busRead a s = (s.ram.read (ramIndex a), s) := by
  unfold busRead; simp [h]

/-- `peek` from 0x8000 up. -/
theorem peek_prg {a : Addr} (s : State) (h : 0x8000 ≤ a.toNat) : peek a s = some (prgRead a s) := by
  unfold peek
  simp [show ¬ a.toNat < 0x2000 by omega, show ¬ a.toNat < 0x4020 by omega, show ¬ a.toNat < 0x6000 by omega,
    show ¬ a.toNat < 0x8000 by omega]

/-- A read from 0x8000 up. -/
theorem busRead_prg {a : Addr} (s : State) (h : 0x8000 ≤ a.toNat) : busRead a s = (prgRead a s, s) :=
  busRead_of_peek (peek_prg s h)

/-- Everything a bus read can change: the PPU's v, w, read buffer and vblank, the pad indices, and the count
of draws. -/
theorem busRead_state (a : Addr) (s : State) :
    (busRead a s).2 =
      { s with
        ppu := { s.ppu with
          v := (busRead a s).2.ppu.v, w := (busRead a s).2.ppu.w, rdbuf := (busRead a s).2.ppu.rdbuf
          vblank := (busRead a s).2.ppu.vblank }
        pads := { s.pads with idx0 := (busRead a s).2.pads.idx0, idx1 := (busRead a s).2.pads.idx1 }
        draws := (busRead a s).2.draws } := by
  unfold busRead ppuPortRead ioRead statusRead dataRead padRead0 padRead1
  simp only [drawByte]
  split_ifs <;> rfl

@[simp] theorem busRead_a (a : Addr) (s : State) : (busRead a s).2.a = s.a := by rw [busRead_state]
@[simp] theorem busRead_x (a : Addr) (s : State) : (busRead a s).2.x = s.x := by rw [busRead_state]
@[simp] theorem busRead_y (a : Addr) (s : State) : (busRead a s).2.y = s.y := by rw [busRead_state]
@[simp] theorem busRead_sp (a : Addr) (s : State) : (busRead a s).2.sp = s.sp := by rw [busRead_state]
@[simp] theorem busRead_pc (a : Addr) (s : State) : (busRead a s).2.pc = s.pc := by rw [busRead_state]
@[simp] theorem busRead_flags (a : Addr) (s : State) : (busRead a s).2.flags = s.flags := by rw [busRead_state]
@[simp] theorem busRead_pending (a : Addr) (s : State) : (busRead a s).2.pending = s.pending := by rw [busRead_state]
@[simp] theorem busRead_remaining (a : Addr) (s : State) : (busRead a s).2.remaining = s.remaining := by
  rw [busRead_state]
@[simp] theorem busRead_clock (a : Addr) (s : State) : (busRead a s).2.clock = s.clock := by rw [busRead_state]
@[simp] theorem busRead_cost (a : Addr) (s : State) : (busRead a s).2.cost = s.cost := by rw [busRead_state]
@[simp] theorem busRead_diag (a : Addr) (s : State) : (busRead a s).2.diag = s.diag := by rw [busRead_state]
@[simp] theorem busRead_ram_field (a : Addr) (s : State) : (busRead a s).2.ram = s.ram := by rw [busRead_state]
@[simp] theorem busRead_sram (a : Addr) (s : State) : (busRead a s).2.sram = s.sram := by rw [busRead_state]
@[simp] theorem busRead_apu (a : Addr) (s : State) : (busRead a s).2.apu = s.apu := by rw [busRead_state]
@[simp] theorem busRead_frame (a : Addr) (s : State) : (busRead a s).2.frame = s.frame := by rw [busRead_state]
@[simp] theorem busRead_mapper (a : Addr) (s : State) : (busRead a s).2.mapper = s.mapper := by rw [busRead_state]
@[simp] theorem busRead_cart (a : Addr) (s : State) : (busRead a s).2.cart = s.cart := by rw [busRead_state]
@[simp] theorem busRead_params (a : Addr) (s : State) : (busRead a s).2.params = s.params := by rw [busRead_state]
@[simp] theorem busRead_nt (a : Addr) (s : State) : (busRead a s).2.ppu.nt = s.ppu.nt := by rw [busRead_state]
@[simp] theorem busRead_ntmap (a : Addr) (s : State) : (busRead a s).2.ppu.ntmap = s.ppu.ntmap := by
  rw [busRead_state]
@[simp] theorem busRead_pal (a : Addr) (s : State) : (busRead a s).2.ppu.pal = s.ppu.pal := by rw [busRead_state]
@[simp] theorem busRead_oam (a : Addr) (s : State) : (busRead a s).2.ppu.oam = s.ppu.oam := by rw [busRead_state]
@[simp] theorem busRead_oamaddr (a : Addr) (s : State) : (busRead a s).2.ppu.oamaddr = s.ppu.oamaddr := by
  rw [busRead_state]
@[simp] theorem busRead_sprOverflow (a : Addr) (s : State) :
    (busRead a s).2.ppu.sprOverflow = s.ppu.sprOverflow := by rw [busRead_state]

/-- A read changes no byte that `peek` shows. -/
@[simp] theorem peek_busRead (a b : Addr) (s : State) : peek b (busRead a s).2 = peek b s := by
  rw [busRead_state]; rfl

theorem padNext_le (strobe : Bool) (idx : Nat) (h : idx ≤ 8) : padNext strobe idx ≤ 8 := by
  unfold padNext; split_ifs <;> omega

/-- A pad read index stays at most 8. -/
theorem busRead_pads_le (a : Addr) (s : State) (h : s.pads.idx0 ≤ 8 ∧ s.pads.idx1 ≤ 8) :
    (busRead a s).2.pads.idx0 ≤ 8 ∧ (busRead a s).2.pads.idx1 ≤ 8 := by
  have h0 : (padRead0 s).2.pads.idx0 ≤ 8 ∧ (padRead0 s).2.pads.idx1 ≤ 8 :=
    ⟨padNext_le _ _ (by dsimp only; split_ifs <;> omega), h.2⟩
  have h1 : (padRead1 s).2.pads.idx0 ≤ 8 ∧ (padRead1 s).2.pads.idx1 ≤ 8 :=
    ⟨h.1, padNext_le _ _ (by dsimp only; split_ifs <;> omega)⟩
  unfold busRead ppuPortRead ioRead statusRead dataRead
  split_ifs <;> first | exact h | exact h0 | exact h1

/-! ### Writes -/

theorem oamDmaByte_state (d : Byte) (s : State) (i : Nat) :
    oamDmaByte d s i =
      { s with
        ppu := { s.ppu with
          v := (oamDmaByte d s i).ppu.v, w := (oamDmaByte d s i).ppu.w, rdbuf := (oamDmaByte d s i).ppu.rdbuf
          vblank := (oamDmaByte d s i).ppu.vblank, oam := (oamDmaByte d s i).ppu.oam }
        pads := { s.pads with idx0 := (oamDmaByte d s i).pads.idx0, idx1 := (oamDmaByte d s i).pads.idx1 }
        draws := (oamDmaByte d s i).draws } := by
  unfold oamDmaByte
  simp only
  rw [busRead_state]

/-- What the copy loop of an OAM DMA can change. -/
theorem oamDmaLoop_state (d : Byte) (l : List Nat) (s : State) :
    l.foldl (oamDmaByte d) s =
      { s with
        ppu := { s.ppu with
          v := (l.foldl (oamDmaByte d) s).ppu.v, w := (l.foldl (oamDmaByte d) s).ppu.w
          rdbuf := (l.foldl (oamDmaByte d) s).ppu.rdbuf, vblank := (l.foldl (oamDmaByte d) s).ppu.vblank
          oam := (l.foldl (oamDmaByte d) s).ppu.oam }
        pads := { s.pads with
          idx0 := (l.foldl (oamDmaByte d) s).pads.idx0, idx1 := (l.foldl (oamDmaByte d) s).pads.idx1 }
        draws := (l.foldl (oamDmaByte d) s).draws } := by
  induction l generalizing s with
  | nil => rfl
  | cons i l ih =>
    simp only [List.foldl_cons]
    rw [ih (oamDmaByte d s i)]
    generalize l.foldl (oamDmaByte d) (oamDmaByte d s i) = t
    rw [oamDmaByte_state d s i]

/-! ### What a bus access cannot change -/

/-- What no bus access changes: the CPU, the pending slot, the counters but for the cost, the log, the frame
driver, the parameters; the APU but for its queue; the cartridge but for CHR RAM; the two sprite flags; the
pads' snapshots. -/
structure BusFrame (s t : State) : Prop where
  a : t.a = s.a
  x : t.x = s.x
  y : t.y = s.y
  sp : t.sp = s.sp
  pc : t.pc = s.pc
  flags : t.flags = s.flags
  pending : t.pending = s.pending
  remaining : t.remaining = s.remaining
  clock : t.clock = s.clock
  diag : t.diag = s.diag
  frame : t.frame = s.frame
  params : t.params = s.params
  apu : t.apu = { s.apu with queue := t.apu.queue }
  cart : t.cart = { s.cart with chr := t.cart.chr }
  sprite0hit : t.ppu.sprite0hit = s.ppu.sprite0hit
  sprOverflow : t.ppu.sprOverflow = s.ppu.sprOverflow
  snap0 : t.pads.snap0 = s.pads.snap0
  snap1 : t.pads.snap1 = s.pads.snap1

theorem BusFrame.refl (s : State) : BusFrame s s := by constructor <;> rfl

theorem BusFrame.trans {s t u : State} (h : BusFrame s t) (k : BusFrame t u) : BusFrame s u := by
  constructor
  case apu => rw [k.apu, h.apu]
  case cart => rw [k.cart, h.cart]
  all_goals simp only [k.a, k.x, k.y, k.sp, k.pc, k.flags, k.pending, k.remaining, k.clock, k.diag, k.frame,
    k.params, k.sprite0hit, k.sprOverflow, k.snap0, k.snap1, h.a, h.x, h.y, h.sp, h.pc, h.flags, h.pending,
    h.remaining, h.clock, h.diag, h.frame, h.params, h.sprite0hit, h.sprOverflow, h.snap0, h.snap1]

theorem BusFrame.of_busRead (a : Addr) (s : State) : BusFrame s (busRead a s).2 := by
  rw [busRead_state]; constructor <;> rfl

/-- A PPU port write changes the PPU and CHR RAM only. -/
theorem ppuPortWrite_state (p : Nat) (d : Byte) (s : State) :
    ppuPortWrite p d s =
      { s with ppu := (ppuPortWrite p d s).ppu, cart := { s.cart with chr := (ppuPortWrite p d s).cart.chr } } := by
  have hd : dataWrite d s =
      { s with ppu := (dataWrite d s).ppu, cart := { s.cart with chr := (dataWrite d s).cart.chr } } := by
    unfold dataWrite ppuWrite chrWrite; split_ifs <;> rfl
  unfold ppuPortWrite
  split_ifs <;> first | rfl | exact hd

/-- A mapper register write changes the mapper and the nametable map only. -/
theorem mapperWrite_state (a : Addr) (d : Byte) (s : State) :
    mapperWrite a d s =
      { s with
        mapper := (mapperWrite a d s).mapper, ppu := { s.ppu with ntmap := (mapperWrite a d s).ppu.ntmap } } := by
  unfold mapperWrite
  split_ifs
  · rfl
  · split
    · rfl
    · rfl
    · rfl
    · unfold mmc1Write mmc1Dispatch
      dsimp only
      split_ifs <;> rfl

/-- An OAM DMA changes OAM, what reads can change, and the cost. -/
theorem oamDma_state (d : Byte) (s : State) :
    oamDma d s =
      { s with
        ppu := { s.ppu with
          v := (oamDma d s).ppu.v, w := (oamDma d s).ppu.w, rdbuf := (oamDma d s).ppu.rdbuf
          vblank := (oamDma d s).ppu.vblank, oam := (oamDma d s).ppu.oam }
        pads := { s.pads with idx0 := (oamDma d s).pads.idx0, idx1 := (oamDma d s).pads.idx1 }
        cost := s.cost + s.params.dmaStall, draws := (oamDma d s).draws } := by
  unfold oamDma
  rw [oamDmaLoop_state]
  rfl

theorem BusFrame.of_oamDma (d : Byte) (s : State) : BusFrame s (oamDma d s) := by
  rw [oamDma_state]; constructor <;> rfl

theorem BusFrame.of_ppuPortWrite (p : Nat) (d : Byte) (s : State) : BusFrame s (ppuPortWrite p d s) := by
  have hs : (ppuPortWrite p d s).ppu.sprite0hit = s.ppu.sprite0hit ∧
      (ppuPortWrite p d s).ppu.sprOverflow = s.ppu.sprOverflow := by
    have hd : (dataWrite d s).ppu.sprite0hit = s.ppu.sprite0hit ∧
        (dataWrite d s).ppu.sprOverflow = s.ppu.sprOverflow := by
      unfold dataWrite ppuWrite chrWrite; split_ifs <;> exact ⟨rfl, rfl⟩
    unfold ppuPortWrite
    split_ifs
    case pos => exact ⟨rfl, rfl⟩
    case pos => exact ⟨rfl, rfl⟩
    case pos => exact ⟨rfl, rfl⟩
    case pos => exact ⟨rfl, rfl⟩
    case pos => exact ⟨rfl, rfl⟩
    case pos => unfold scrollWrite; split_ifs <;> exact ⟨rfl, rfl⟩
    case pos => unfold addrWrite; split_ifs <;> exact ⟨rfl, rfl⟩
    case neg => exact hd
  obtain ⟨h1, h2⟩ := hs
  rw [ppuPortWrite_state]
  constructor <;> first | rfl | assumption

theorem BusFrame.of_ioWrite (a : Addr) (d : Byte) (s : State) : BusFrame s (ioWrite a d s) := by
  unfold ioWrite
  split_ifs
  · constructor <;> rfl
  · exact BusFrame.of_oamDma d s
  · unfold padStrobe; split_ifs <;> constructor <;> rfl
  · exact BusFrame.refl s

theorem BusFrame.of_mapperWrite (a : Addr) (d : Byte) (s : State) : BusFrame s (mapperWrite a d s) := by
  rw [mapperWrite_state]; constructor <;> rfl

/-- No bus write changes more than `BusFrame` lets it. -/
theorem BusFrame.of_busWrite (a : Addr) (v : Byte) (s : State) : BusFrame s (busWrite a v s) := by
  unfold busWrite
  split_ifs
  · constructor <;> rfl
  · exact BusFrame.of_ppuPortWrite _ v s
  · exact BusFrame.of_ioWrite a v s
  · exact BusFrame.of_mapperWrite a v s
  · constructor <;> rfl
  · exact BusFrame.refl s
  · exact BusFrame.of_mapperWrite a v s

@[simp] theorem busWrite_a (a : Addr) (v : Byte) (s : State) : (busWrite a v s).a = s.a := (BusFrame.of_busWrite a v s).a
@[simp] theorem busWrite_x (a : Addr) (v : Byte) (s : State) : (busWrite a v s).x = s.x := (BusFrame.of_busWrite a v s).x
@[simp] theorem busWrite_y (a : Addr) (v : Byte) (s : State) : (busWrite a v s).y = s.y := (BusFrame.of_busWrite a v s).y
@[simp] theorem busWrite_sp (a : Addr) (v : Byte) (s : State) : (busWrite a v s).sp = s.sp :=
  (BusFrame.of_busWrite a v s).sp
@[simp] theorem busWrite_pc (a : Addr) (v : Byte) (s : State) : (busWrite a v s).pc = s.pc :=
  (BusFrame.of_busWrite a v s).pc
@[simp] theorem busWrite_flags (a : Addr) (v : Byte) (s : State) : (busWrite a v s).flags = s.flags :=
  (BusFrame.of_busWrite a v s).flags
@[simp] theorem busWrite_pending (a : Addr) (v : Byte) (s : State) : (busWrite a v s).pending = s.pending :=
  (BusFrame.of_busWrite a v s).pending
@[simp] theorem busWrite_remaining (a : Addr) (v : Byte) (s : State) : (busWrite a v s).remaining = s.remaining :=
  (BusFrame.of_busWrite a v s).remaining
@[simp] theorem busWrite_clock (a : Addr) (v : Byte) (s : State) : (busWrite a v s).clock = s.clock :=
  (BusFrame.of_busWrite a v s).clock
@[simp] theorem busWrite_diag (a : Addr) (v : Byte) (s : State) : (busWrite a v s).diag = s.diag :=
  (BusFrame.of_busWrite a v s).diag
@[simp] theorem busWrite_frame (a : Addr) (v : Byte) (s : State) : (busWrite a v s).frame = s.frame :=
  (BusFrame.of_busWrite a v s).frame
@[simp] theorem busWrite_params (a : Addr) (v : Byte) (s : State) : (busWrite a v s).params = s.params :=
  (BusFrame.of_busWrite a v s).params
@[simp] theorem busWrite_prg (a : Addr) (v : Byte) (s : State) : (busWrite a v s).cart.prg = s.cart.prg := by
  rw [(BusFrame.of_busWrite a v s).cart]
@[simp] theorem busWrite_hasSram (a : Addr) (v : Byte) (s : State) :
    (busWrite a v s).cart.hasSram = s.cart.hasSram := by rw [(BusFrame.of_busWrite a v s).cart]

/-! ### Writes, range by range -/

/-- A write to RAM. -/
theorem busWrite_ram {a : Addr} (v : Byte) (s : State) (h : a.toNat < 0x2000) :
    busWrite a v s = { s with ram := s.ram.write (ramIndex a) v } := by
  unfold busWrite; simp [h]

/-- A write to a PPU port. -/
theorem busWrite_ppu {a : Addr} (v : Byte) (s : State) (h : 0x2000 ≤ a.toNat) (k : a.toNat < 0x4000) :
    busWrite a v s = ppuPortWrite (a.toNat % 8) v s := by
  unfold busWrite; simp [show ¬ a.toNat < 0x2000 by omega, k]

/-- A write to the 0x4000-0x401F ports. -/
theorem busWrite_io {a : Addr} (v : Byte) (s : State) (h : 0x4000 ≤ a.toNat) (k : a.toNat < 0x4020) :
    busWrite a v s = ioWrite a v s := by
  unfold busWrite; simp [show ¬ a.toNat < 0x2000 by omega, show ¬ a.toNat < 0x4000 by omega, k]

/-- A write to the expansion range has no effect. -/
theorem busWrite_expansion {a : Addr} (v : Byte) (s : State) (h : 0x4020 ≤ a.toNat) (k : a.toNat < 0x6000) :
    busWrite a v s = s := by
  unfold busWrite mapperWrite
  simp [show ¬ a.toNat < 0x2000 by omega, show ¬ a.toNat < 0x4000 by omega, show ¬ a.toNat < 0x4020 by omega, k,
    show a.toNat < 0x8000 by omega]

/-- A write to the SRAM window. -/
theorem busWrite_sram {a : Addr} (v : Byte) (s : State) (h : 0x6000 ≤ a.toNat) (k : a.toNat < 0x8000) :
    busWrite a v s = if s.cart.hasSram then { s with sram := s.sram.write (a.toNat - 0x6000) v } else s := by
  unfold busWrite
  simp [show ¬ a.toNat < 0x2000 by omega, show ¬ a.toNat < 0x4000 by omega, show ¬ a.toNat < 0x4020 by omega,
    show ¬ a.toNat < 0x6000 by omega, k]

/-- A write from 0x8000 up is a mapper register write. -/
theorem busWrite_mapper {a : Addr} (v : Byte) (s : State) (h : 0x8000 ≤ a.toNat) :
    busWrite a v s = mapperWrite a v s := by
  unfold busWrite
  simp [show ¬ a.toNat < 0x2000 by omega, show ¬ a.toNat < 0x4000 by omega, show ¬ a.toNat < 0x4020 by omega,
    show ¬ a.toNat < 0x6000 by omega, show ¬ a.toNat < 0x8000 by omega]

/-- A write to a port or to the expansion range leaves every byte that `peek` shows. -/
theorem peek_busWrite_io {a : Addr} (v : Byte) (b : Addr) (s : State) (h : 0x2000 ≤ a.toNat) (k : a.toNat < 0x6000) :
    peek b (busWrite a v s) = peek b s := by
  by_cases h1 : a.toNat < 0x4000
  · rw [busWrite_ppu v s h h1, ppuPortWrite_state]; rfl
  · by_cases h2 : a.toNat < 0x4020
    · rw [busWrite_io v s (by omega) h2]
      unfold ioWrite
      split_ifs
      · rfl
      · rw [oamDma_state]; rfl
      · rfl
      · rfl
    · rw [busWrite_expansion v s (by omega) k]

/-- A write to RAM, as `peek` shows it: every address of the same RAM byte gives the new value, every other
address is as before. -/
theorem peek_busWrite_ram {a : Addr} (v : Byte) (b : Addr) (s : State) (h : a.toNat < 0x2000) :
    peek b (busWrite a v s) = if b.toNat < 0x2000 ∧ ramIndex b = ramIndex a then some v else peek b s := by
  rw [busWrite_ram v s h]
  unfold peek
  by_cases h1 : b.toNat < 0x2000
  · by_cases h2 : ramIndex b = ramIndex a <;> simp [h1, h2]
  · simp [h1]; rfl

/-- A write to the SRAM window, as `peek` shows it. -/
theorem peek_busWrite_sram {a : Addr} (v : Byte) (b : Addr) (s : State) (h : 0x6000 ≤ a.toNat)
    (k : a.toNat < 0x8000) :
    peek b (busWrite a v s) = if b = a ∧ s.cart.hasSram then some v else peek b s := by
  rw [busWrite_sram v s h k]
  cases hs : s.cart.hasSram
  · simp
  · simp only [and_true, ite_true]
    unfold peek
    by_cases h1 : b = a
    · subst h1
      simp [show ¬ b.toNat < 0x2000 by omega, show ¬ b.toNat < 0x4020 by omega, show ¬ b.toNat < 0x6000 by omega, k,
        hs]
    · have hne : b.toNat ≠ a.toNat := fun e => h1 (BitVec.eq_of_toNat_eq e)
      simp only [h1, if_false]
      split_ifs <;> first | rfl | skip
      simp [show b.toNat - 0x6000 ≠ a.toNat - 0x6000 by omega]

/-- The number `hi:lo` names (R7). -/
theorem word16_toNat (hi lo : Byte) : (word16 hi lo).toNat = 256 * hi.toNat + lo.toNat := by
  unfold word16
  rw [BitVec.toNat_append, ← Nat.shiftLeft_add_eq_or_of_lt lo.isLt, Nat.shiftLeft_eq]
  omega

/-- The stack bytes are RAM. -/
theorem stackAddr_toNat (sp : Byte) : (stackAddr sp).toNat = 0x100 + sp.toNat := by
  unfold stackAddr; rw [word16_toNat]; rfl

theorem stackAddr_lt (sp : Byte) : (stackAddr sp).toNat < 0x2000 := by
  rw [stackAddr_toNat]; have := sp.isLt; omega

/-- A push writes one RAM byte and steps S. -/
theorem push8_eq (v : Byte) (s : State) :
    push8 v s = { s with ram := s.ram.write (0x100 + s.sp.toNat) v, sp := s.sp - 1 } := by
  unfold push8
  rw [busWrite_ram v s (stackAddr_lt s.sp)]
  have h : ramIndex (stackAddr s.sp) = 0x100 + s.sp.toNat := by
    unfold ramIndex; rw [stackAddr_toNat]; have := s.sp.isLt; omega
  rw [h]; rfl

/-- A pull steps S and reads one RAM byte. -/
theorem pull8_eq (s : State) :
    pull8 s = (s.ram.read (0x100 + (s.sp + 1).toNat), { s with sp := s.sp + 1 }) := by
  unfold pull8
  rw [busRead_ram _ (stackAddr_lt _)]
  have h : ramIndex (stackAddr (s.sp + 1)) = 0x100 + (s.sp + 1).toNat := by
    unfold ramIndex; rw [stackAddr_toNat]; have := (s.sp + 1).isLt; omega
  simp only [State.setSp_sp, State.setSp_ram, h]
  rfl

end Sys2Proof.Machine
end

