-- ==== Sys2Proof/Laws/Keeps.lean ====
section
/-!
SUPPORT. Every bus access keeps the stores canonical and in range, the windows derived, the counters bounded
and `sprOverflow` 0 (`State.wellStored`), and appends to the deferred queue at most one write, stamped with the time
charged so far.
-/

namespace Sys2Proof.Machine

/-- `wellStored` depends on these fields only. -/
theorem State.wellStored_congr {s t : State} (h : s.wellStored) (h1 : t.ram = s.ram) (h2 : t.sram = s.sram)
    (h3 : t.ppu.nt = s.ppu.nt) (h4 : t.ppu.pal = s.ppu.pal) (h5 : t.ppu.oam = s.ppu.oam)
    (h6 : t.frame.fb = s.frame.fb) (h7 : t.frame.display = s.frame.display) (h8 : t.cart = s.cart)
    (h9 : t.mapper = s.mapper) (h10 : t.frame.line = s.frame.line) (h11 : t.pads.idx0 ≤ 8) (h12 : t.pads.idx1 ≤ 8)
    (h13 : t.ppu.sprOverflow = s.ppu.sprOverflow) : t.wellStored := by
  obtain ⟨hc, hw, hd, hk, ho⟩ := h
  refine ⟨?_, ?_, ?_, ?_, ?_⟩
  · unfold State.canonical; rw [h1, h2, h3, h4, h5, h6, h7, h8]; exact hc
  · unfold State.withinSizes; rw [h1, h2, h3, h4, h5, h6, h7, h8]; exact hw
  · unfold State.windowsDerived; rw [h8, h9]; exact hd
  · unfold State.countersOk; rw [h9, h10]; exact ⟨hk.1, h11, h12, hk.2.2.2⟩
  · rw [h13]; exact ho

theorem State.wellStored_busRead (a : Addr) {s : State} (h : s.wellStored) : (busRead a s).2.wellStored := by
  have hp := busRead_pads_le a s ⟨h.2.2.2.1.2.1, h.2.2.2.1.2.2.1⟩
  exact State.wellStored_congr h (by simp) (by simp) (by simp) (by simp) (by simp) (by simp) (by simp) (by simp)
    (by simp) (by simp) hp.1 hp.2 (by simp)

theorem palIndex_lt (a : BitVec 14) : palIndex a < 32 := by
  unfold palIndex; dsimp only; split_ifs <;> omega

theorem ntIndex_lt (a : BitVec 14) (m : NtMap) : ntIndex a m < 0x1000 := by
  unfold ntIndex
  have := (m.get (a.toNat / 1024 % 4)).isLt
  omega

theorem chrOffset_lt (a : BitVec 14) (s : State) : chrOffset a s < chrSize s.cart := by
  unfold chrOffset
  refine Nat.mod_lt _ ?_
  unfold chrSize; split_ifs <;> omega

theorem State.wellStored_ppuWrite (a : BitVec 14) (v : Byte) {s : State} (h : s.wellStored) :
    (ppuWrite a v s).wellStored := by
  obtain ⟨hc, hw, hd, hk, ho⟩ := h
  unfold ppuWrite chrWrite
  split_ifs
  · refine ⟨?_, ?_, hd, hk, ho⟩
    · exact ⟨hc.1, hc.2.1, hc.2.2.1, hc.2.2.2.1, hc.2.2.2.2.1, hc.2.2.2.2.2.1, hc.2.2.2.2.2.2.1, hc.2.2.2.2.2.2.2.1,
        Memory.wf_write _ _ hc.2.2.2.2.2.2.2.2⟩
    · exact ⟨hw.1, hw.2.1, hw.2.2.1, hw.2.2.2.1, hw.2.2.2.2.1, hw.2.2.2.2.2.1, hw.2.2.2.2.2.2.1,
        Memory.within_write _ _ (chrOffset_lt a s) hw.2.2.2.2.2.2.2⟩
  · exact ⟨hc, hw, hd, hk, ho⟩
  · exact ⟨⟨hc.1, hc.2.1, Memory.wf_write _ _ hc.2.2.1, hc.2.2.2⟩,
      ⟨hw.1, hw.2.1, Memory.within_write _ _ (ntIndex_lt _ _) hw.2.2.1, hw.2.2.2⟩, hd, hk, ho⟩
  · exact ⟨⟨hc.1, hc.2.1, hc.2.2.1, Memory.wf_write _ _ hc.2.2.2.1, hc.2.2.2.2⟩,
      ⟨hw.1, hw.2.1, hw.2.2.1, Memory.within_write _ _ (palIndex_lt _) hw.2.2.2.1, hw.2.2.2.2⟩, hd, hk, ho⟩

theorem State.wellStored_setOam {s : State} (h : s.wellStored) (i : Nat) (hi : i < 256) (b : Byte) :
    ({ s with ppu := { s.ppu with oam := s.ppu.oam.write i b } } : State).wellStored := by
  obtain ⟨hc, hw, hd, hk, ho⟩ := h
  exact ⟨⟨hc.1, hc.2.1, hc.2.2.1, hc.2.2.2.1, Memory.wf_write _ _ hc.2.2.2.2.1, hc.2.2.2.2.2⟩,
    ⟨hw.1, hw.2.1, hw.2.2.1, hw.2.2.2.1, Memory.within_write _ _ hi hw.2.2.2.2.1, hw.2.2.2.2.2⟩, hd, hk, ho⟩

theorem State.wellStored_ppuPortWrite (p : Nat) (d : Byte) {s : State} (h : s.wellStored) :
    (ppuPortWrite p d s).wellStored := by
  unfold ppuPortWrite
  split_ifs
  · exact h
  · exact h
  · exact h
  · exact h
  · exact State.wellStored_setOam h s.ppu.oamaddr.toNat (by have := s.ppu.oamaddr.isLt; omega) d
  · unfold scrollWrite; split_ifs <;> exact h
  · unfold addrWrite; split_ifs <;> exact h
  · exact State.wellStored_ppuWrite _ d h

theorem State.wellStored_oamDma (d : Byte) {s : State} (h : s.wellStored) : (oamDma d s).wellStored := by
  have hl (l : List Nat) : ∀ s : State, s.wellStored → (l.foldl (oamDmaByte d) s).wellStored := by
    induction l with
    | nil => intro s h; exact h
    | cons i l ih =>
      intro s h
      refine ih _ ?_
      exact State.wellStored_setOam (State.wellStored_busRead _ h) _ (Nat.mod_lt _ (by omega)) _
  exact hl _ s h

theorem State.wellStored_setMapper {r : MapperRegs} (hr : r.countOk) {s : State} (h : s.wellStored) :
    (setMapper r s).wellStored :=
  ⟨h.1, h.2.1, rfl, ⟨h.2.2.2.1.1, h.2.2.2.1.2.1, h.2.2.2.1.2.2.1, hr⟩, h.2.2.2.2⟩

theorem State.wellStored_mapperWrite (a : Addr) (d : Byte) {s : State} (h : s.wellStored) :
    (mapperWrite a d s).wellStored := by
  unfold mapperWrite
  split_ifs
  · exact h
  · split
    · exact h
    · exact State.wellStored_setMapper trivial h
    · exact State.wellStored_setMapper trivial h
    · next r hr =>
      have hk : r.count ≤ 4 := by have := h.2.2.2.1.2.2.2; rw [hr] at this; exact this
      unfold mmc1Write
      dsimp only
      split_ifs with h1 h2
      · exact State.wellStored_setMapper (Nat.zero_le _) h
      · unfold mmc1Dispatch
        dsimp only
        split_ifs
        · exact State.wellStored_setMapper (s := changeMirroring _ s) (Nat.zero_le _) h
        all_goals exact State.wellStored_setMapper (Nat.zero_le _) h
      · refine ⟨h.1, h.2.1, ?_, ⟨h.2.2.2.1.1, h.2.2.2.1.2.1, h.2.2.2.1.2.2.1, ?_⟩, h.2.2.2.2⟩
        · have hd : s.mapper.win = _ := h.2.2.1
          rw [hr] at hd
          exact hd
        · show r.count + 1 ≤ 4
          omega

/-- Every bus write keeps `wellStored`. -/
theorem State.wellStored_busWrite (a : Addr) (v : Byte) {s : State} (h : s.wellStored) :
    (busWrite a v s).wellStored := by
  obtain ⟨hc, hw, hd, hk, ho⟩ := h
  unfold busWrite
  split_ifs with h1 h2 h3 h4 h5
  · exact ⟨⟨Memory.wf_write _ _ hc.1, hc.2⟩,
      ⟨Memory.within_write _ _ (Nat.mod_lt _ (by omega)) hw.1, hw.2⟩, hd, hk, ho⟩
  · exact State.wellStored_ppuPortWrite _ v ⟨hc, hw, hd, hk, ho⟩
  · unfold ioWrite
    split_ifs
    · exact ⟨hc, hw, hd, hk, ho⟩
    · exact State.wellStored_oamDma v ⟨hc, hw, hd, hk, ho⟩
    · unfold padStrobe
      split_ifs
      · exact ⟨hc, hw, hd, ⟨hk.1, Nat.zero_le _, Nat.zero_le _, hk.2.2.2⟩, ho⟩
      · exact ⟨hc, hw, hd, hk, ho⟩
    · exact ⟨hc, hw, hd, hk, ho⟩
  · exact State.wellStored_mapperWrite a v ⟨hc, hw, hd, hk, ho⟩
  · exact ⟨⟨hc.1, Memory.wf_write _ _ hc.2.1, hc.2.2⟩,
      ⟨hw.1, Memory.within_write _ _ (by omega) hw.2.1, hw.2.2⟩, hd, hk, ho⟩
  · exact ⟨hc, hw, hd, hk, ho⟩
  · exact State.wellStored_mapperWrite a v ⟨hc, hw, hd, hk, ho⟩

/-- A bus write appends at most one deferred write, stamped with the time charged so far (R1101, R906). -/
theorem busWrite_queue (a : Addr) (v : Byte) (s : State) :
    (busWrite a v s).apu.queue = s.apu.queue ∨
      (busWrite a v s).apu.queue = s.apu.queue ++ [{ ts := s.clock + s.cost, addr := a, val := v }] := by
  have hp (p : Nat) : (ppuPortWrite p v s).apu = s.apu := by rw [ppuPortWrite_state]
  have hm : (mapperWrite a v s).apu = s.apu := by rw [mapperWrite_state]
  have hd : (oamDma v s).apu = s.apu := by rw [oamDma_state]
  unfold busWrite ioWrite apuEnqueue
  split_ifs <;> first | exact .inl rfl | exact .inr rfl | exact .inl (by rw [hp]) | exact .inl (by rw [hm]) |
    exact .inl (by rw [hd])

end Sys2Proof.Machine
end

