-- ==== Sys2Proof/Laws/Ops.lean ====
section
/-!
SUPPORT. What the shared operations do, in closed form: the stack, interrupt entry and return, the reset
sequence, the operand forms, the cartridge at power-on. Callers cite these and unfold nothing below them.
-/

namespace Sys2Proof.Machine

/-! ### Halves of a word -/

theorem loByte_toNat (w : Addr) : (loByte w).toNat = w.toNat % 256 := by
  unfold loByte; simp [BitVec.extractLsb'_toNat]

theorem hiByte_toNat (w : Addr) : (hiByte w).toNat = w.toNat / 256 := by
  unfold hiByte
  have := w.isLt
  simp [BitVec.extractLsb'_toNat, Nat.shiftRight_eq_div_pow]
  omega

@[simp] theorem loByte_word16 (hi lo : Byte) : loByte (word16 hi lo) = lo := by
  apply BitVec.eq_of_toNat_eq
  rw [loByte_toNat, word16_toNat]; have := lo.isLt; omega

@[simp] theorem hiByte_word16 (hi lo : Byte) : hiByte (word16 hi lo) = hi := by
  apply BitVec.eq_of_toNat_eq
  rw [hiByte_toNat, word16_toNat]; have := lo.isLt; omega

@[simp] theorem word16_halves (w : Addr) : word16 (hiByte w) (loByte w) = w := by
  apply BitVec.eq_of_toNat_eq
  rw [word16_toNat, loByte_toNat, hiByte_toNat]; omega

/-! ### The stack (R10, R51) -/

/-- Two pushes: the high byte at S, the low byte at S - 1 (modulo 256). -/
theorem push16_eq (w : Addr) (s : State) :
    push16 w s =
      { s with
        ram := (s.ram.write (0x100 + s.sp.toNat) (hiByte w)).write (0x100 + (s.sp - 1).toNat) (loByte w)
        sp := s.sp - 2 } := by
  unfold push16
  rw [push8_eq, push8_eq]
  congr 1
  simp only [BitVec.sub_sub]; rfl

/-- Two pulls: the low byte at S + 1, the high byte at S + 2 (modulo 256). -/
theorem pull16_eq (s : State) :
    pull16 s =
      (word16 (s.ram.read (0x100 + (s.sp + 2).toNat)) (s.ram.read (0x100 + (s.sp + 1).toNat)),
        { s with sp := s.sp + 2 }) := by
  unfold pull16
  simp only [pull8_eq, BitVec.add_assoc]
  rfl

/-! ### Interrupts (R820, R713) -/

theorem read16_prg {a : Addr} (s : State) (h : 0x8000 ≤ a.toNat) (k : a.toNat < 0xFFFF) :
    read16 a s = (word16 (prgRead (a + 1) s) (prgRead a s), s) := by
  unfold read16
  rw [busRead_prg s h]
  have h1 : (a + 1).toNat = a.toNat + 1 := by simp [BitVec.toNat_add]; omega
  simp only
  rw [busRead_prg s (a := a + 1) (by omega)]

/-- Interrupt entry: three RAM bytes, S, I, B and PC change, nothing else. -/
theorem takeInterrupt_eq (k : Entry) (s : State) :
    takeInterrupt k s =
      { s with
        ram := ((s.ram.write (0x100 + s.sp.toNat) (hiByte s.pc)).write (0x100 + (s.sp - 1).toNat)
          (loByte s.pc)).write (0x100 + (s.sp - 2).toNat) (packP (entryBreak k) s.flags)
        sp := s.sp - 3
        flags := { s.flags with i := true, b := entryBreak k }
        pc := word16 (prgRead (entryVector k + 1) s) (prgRead (entryVector k) s) } := by
  unfold takeInterrupt
  simp only [push16_eq, push8_eq]
  have hv : 0x8000 ≤ (entryVector k).toNat ∧ (entryVector k).toNat < 0xFFFF := by cases k <;> decide
  rw [read16_prg _ hv.1 hv.2]
  simp only [BitVec.sub_sub]
  rfl

/-- The return from an interrupt: flags and PC from three RAM bytes. -/
theorem returnFromInterrupt_eq (s : State) :
    returnFromInterrupt s =
      { s with
        flags := unpackP (s.ram.read (0x100 + (s.sp + 1).toNat))
        pc := word16 (s.ram.read (0x100 + (s.sp + 3).toNat)) (s.ram.read (0x100 + (s.sp + 2).toNat))
        sp := s.sp + 3 } := by
  unfold returnFromInterrupt
  simp only [pull8_eq, pull16_eq, State.setFlags, State.setPc, BitVec.add_assoc]
  rfl

/-- The reset sequence (R901): the vector, S, I, and four draws. -/
theorem resetSequence_eq (s : State) :
    resetSequence s =
      { s with
        pc := word16 (prgRead 0xFFFD s) (prgRead 0xFFFC s), sp := 0xFF
        a := Config.freeByte s.draws, x := Config.freeByte (s.draws + 1), y := Config.freeByte (s.draws + 2)
        flags := { unpackP (Config.freeByte (s.draws + 3)) with i := true }
        draws := s.draws + 4 } := by
  unfold resetSequence
  rw [read16_prg s (by decide) (by decide)]
  rfl

/-! ### Operands (R211-R219) -/

theorem zpAddr_toNat (z : Byte) : (zpAddr z).toNat = z.toNat := by
  unfold zpAddr; rw [word16_toNat]; simp

/-- A pointer in page 0, both bytes from RAM. -/
theorem zpPointer_eq (p : Byte) (s : State) :
    zpPointer p s = word16 (s.ram.read (p + 1).toNat) (s.ram.read p.toNat) := by
  have hz (z : Byte) : (busRead (zpAddr z) s).1 = s.ram.read z.toNat := by
    have hl : (zpAddr z).toNat < 0x2000 := by rw [zpAddr_toNat]; have := z.isLt; omega
    rw [busRead_ram s hl]
    unfold ramIndex; rw [zpAddr_toNat, Nat.mod_eq_of_lt (by have := z.isLt; omega)]
  unfold zpPointer; rw [hz, hz]

/-- An operand in plain memory: its byte, and the page-cross penalty. -/
theorem readOperand_of_peek {m : Mode} {s : State} {b : Byte} (h : peek (effAddr m s) s = some b) :
    readOperand (.mem m) s = (b, s.charge (crossPenalty m s)) := by
  unfold readOperand
  exact busRead_of_peek h

/-- What reading an operand cannot change. -/
theorem BusFrame.of_readOperand (o : ReadOperand) (s : State) : BusFrame s (readOperand o s).2 := by
  cases o with
  | imm b => exact BusFrame.refl s
  | mem m =>
    refine BusFrame.trans (t := s.charge (crossPenalty m s)) ?_ (BusFrame.of_busRead _ _)
    constructor <;> rfl

/-! ### The cartridge at power-on (R902, R1340) -/

/-- Power-on touches the CHR array only: the image's where it has one, else the draw. -/
theorem powerOnCart_eq (c : Cartridge) (draw : State) :
    powerOnCart c draw = { c with chr := if c.chrPages = 0 then draw.cart.chr else c.chr } := by
  unfold powerOnCart; split <;> rfl

/-- The windows do not depend on the CHR array's contents. -/
@[simp] theorem recompute_powerOnCart (c : Cartridge) (draw : State) (r : MapperRegs) :
    recompute (powerOnCart c draw) r = recompute c r := by
  rw [powerOnCart_eq]; cases r <;> rfl

end Sys2Proof.Machine
end

