-- ==== Sys2Proof/Laws/PerInstr.lean ====
section
/-!
SUPPORT. The per-instruction families of LAWS.json. `EncodedLength`: the opcode byte alone fixes how many bytes an
instruction has, one to three (30_encoding.md R201).
-/

namespace Sys2Proof.Laws.EncodedLength

/-- The bytes of a well-formed instruction are its opcode byte and as many operand bytes as that opcode has. -/
def Statement (i : Instr) : Prop :=
  i.wf = true → ∃ op operands, encode i = op :: operands ∧ operands.length + 1 = opLength op ∧ operands.length ≤ 2

/-- No unknown opcode has operand bytes (R230). -/
theorem unknown_opLength : ∀ op ∈ unknownOpcodes, opLength op = 1 := by decide

theorem lda (o : LoadForm) : Statement (.lda o) := fun _ => by cases o <;> exact ⟨_, _, rfl, rfl, by simp⟩

theorem ldx (o : LdxForm) : Statement (.ldx o) := fun _ => by cases o <;> exact ⟨_, _, rfl, rfl, by simp⟩

theorem ldy (o : LdyForm) : Statement (.ldy o) := fun _ => by cases o <;> exact ⟨_, _, rfl, rfl, by simp⟩

theorem sta (o : StaForm) : Statement (.sta o) := fun _ => by cases o <;> exact ⟨_, _, rfl, rfl, by simp⟩

theorem stx (o : StxForm) : Statement (.stx o) := fun _ => by cases o <;> exact ⟨_, _, rfl, rfl, by simp⟩

theorem sty (o : StyForm) : Statement (.sty o) := fun _ => by cases o <;> exact ⟨_, _, rfl, rfl, by simp⟩

theorem tax : Statement .tax := fun _ => ⟨_, _, rfl, rfl, by decide⟩

theorem tay : Statement .tay := fun _ => ⟨_, _, rfl, rfl, by decide⟩

theorem txa : Statement .txa := fun _ => ⟨_, _, rfl, rfl, by decide⟩

theorem tya : Statement .tya := fun _ => ⟨_, _, rfl, rfl, by decide⟩

theorem tsx : Statement .tsx := fun _ => ⟨_, _, rfl, rfl, by decide⟩

theorem txs : Statement .txs := fun _ => ⟨_, _, rfl, rfl, by decide⟩

theorem adc (o : LoadForm) : Statement (.adc o) := fun _ => by cases o <;> exact ⟨_, _, rfl, rfl, by simp⟩

theorem sbc (o : LoadForm) : Statement (.sbc o) := fun _ => by cases o <;> exact ⟨_, _, rfl, rfl, by simp⟩

theorem and (o : LoadForm) : Statement (.and o) := fun _ => by cases o <;> exact ⟨_, _, rfl, rfl, by simp⟩

theorem ora (o : LoadForm) : Statement (.ora o) := fun _ => by cases o <;> exact ⟨_, _, rfl, rfl, by simp⟩

theorem eor (o : LoadForm) : Statement (.eor o) := fun _ => by cases o <;> exact ⟨_, _, rfl, rfl, by simp⟩

theorem cmp (o : LoadForm) : Statement (.cmp o) := fun _ => by cases o <;> exact ⟨_, _, rfl, rfl, by simp⟩

theorem cpx (o : CpForm) : Statement (.cpx o) := fun _ => by cases o <;> exact ⟨_, _, rfl, rfl, by simp⟩

theorem cpy (o : CpForm) : Statement (.cpy o) := fun _ => by cases o <;> exact ⟨_, _, rfl, rfl, by simp⟩

theorem bit (o : BitForm) : Statement (.bit o) := fun _ => by cases o <;> exact ⟨_, _, rfl, rfl, by simp⟩

theorem inc (o : IncForm) : Statement (.inc o) := fun _ => by cases o <;> exact ⟨_, _, rfl, rfl, by simp⟩

theorem dec (o : IncForm) : Statement (.dec o) := fun _ => by cases o <;> exact ⟨_, _, rfl, rfl, by simp⟩

theorem inx : Statement .inx := fun _ => ⟨_, _, rfl, rfl, by decide⟩

theorem iny : Statement .iny := fun _ => ⟨_, _, rfl, rfl, by decide⟩

theorem dex : Statement .dex := fun _ => ⟨_, _, rfl, rfl, by decide⟩

theorem dey : Statement .dey := fun _ => ⟨_, _, rfl, rfl, by decide⟩

theorem asl (o : ShiftForm) : Statement (.asl o) := fun _ => by cases o <;> exact ⟨_, _, rfl, rfl, by simp⟩

theorem lsr (o : ShiftForm) : Statement (.lsr o) := fun _ => by cases o <;> exact ⟨_, _, rfl, rfl, by simp⟩

theorem rol (o : ShiftForm) : Statement (.rol o) := fun _ => by cases o <;> exact ⟨_, _, rfl, rfl, by simp⟩

theorem ror (o : ShiftForm) : Statement (.ror o) := fun _ => by cases o <;> exact ⟨_, _, rfl, rfl, by simp⟩

theorem bpl (off : Byte) : Statement (.bpl off) := fun _ => ⟨_, _, rfl, rfl, by simp⟩

theorem bmi (off : Byte) : Statement (.bmi off) := fun _ => ⟨_, _, rfl, rfl, by simp⟩

theorem bvc (off : Byte) : Statement (.bvc off) := fun _ => ⟨_, _, rfl, rfl, by simp⟩

theorem bvs (off : Byte) : Statement (.bvs off) := fun _ => ⟨_, _, rfl, rfl, by simp⟩

theorem bcc (off : Byte) : Statement (.bcc off) := fun _ => ⟨_, _, rfl, rfl, by simp⟩

theorem bcs (off : Byte) : Statement (.bcs off) := fun _ => ⟨_, _, rfl, rfl, by simp⟩

theorem bne (off : Byte) : Statement (.bne off) := fun _ => ⟨_, _, rfl, rfl, by simp⟩

theorem beq (off : Byte) : Statement (.beq off) := fun _ => ⟨_, _, rfl, rfl, by simp⟩

theorem jmp (o : JmpForm) : Statement (.jmp o) := fun _ => by cases o <;> exact ⟨_, _, rfl, rfl, by simp⟩

theorem jsr (a : Addr) : Statement (.jsr a) := fun _ => ⟨_, _, rfl, rfl, by simp⟩

theorem rts : Statement .rts := fun _ => ⟨_, _, rfl, rfl, by decide⟩

theorem pha : Statement .pha := fun _ => ⟨_, _, rfl, rfl, by decide⟩

theorem pla : Statement .pla := fun _ => ⟨_, _, rfl, rfl, by decide⟩

theorem php : Statement .php := fun _ => ⟨_, _, rfl, rfl, by decide⟩

theorem plp : Statement .plp := fun _ => ⟨_, _, rfl, rfl, by decide⟩

theorem clc : Statement .clc := fun _ => ⟨_, _, rfl, rfl, by decide⟩

theorem sec : Statement .sec := fun _ => ⟨_, _, rfl, rfl, by decide⟩

theorem cli : Statement .cli := fun _ => ⟨_, _, rfl, rfl, by decide⟩

theorem sei : Statement .sei := fun _ => ⟨_, _, rfl, rfl, by decide⟩

theorem cld : Statement .cld := fun _ => ⟨_, _, rfl, rfl, by decide⟩

theorem sed : Statement .sed := fun _ => ⟨_, _, rfl, rfl, by decide⟩

theorem clv : Statement .clv := fun _ => ⟨_, _, rfl, rfl, by decide⟩

theorem brk (pad : Byte) : Statement (.brk pad) := fun _ => ⟨_, _, rfl, rfl, by simp⟩

theorem rti : Statement .rti := fun _ => ⟨_, _, rfl, rfl, by decide⟩

theorem nop : Statement .nop := fun _ => ⟨_, _, rfl, rfl, by decide⟩

theorem ill (op : Byte) : Statement (.ill op) := fun h =>
  ⟨op, [], rfl, (unknown_opLength op (List.contains_iff_mem.1 h)).symm, by decide⟩

end Sys2Proof.Laws.EncodedLength
end

