-- ==== Sys2Proof/Laws/Step.lean ====
section
/-!
SUPPORT. Fetching from memory whose reads have no effect, and the three things a step can be.
-/

namespace Sys2Proof.Machine

/-! ### Fetching (R10, R200) -/

@[simp] theorem peek_setPc (a w : Addr) (s : State) : peek a (s.setPc w) = peek a s := rfl

/-- A fetch from plain memory: the byte at PC, and PC + 1; nothing else changes. -/
theorem fetch8_of_peek {s : State} {b : Byte} (h : peek s.pc s = some b) : fetch8 s = (b, s.setPc (s.pc + 1)) := by
  unfold fetch8; rw [busRead_of_peek h]

/-- Fetching a one-byte instruction. -/
theorem fetchInstr_one {s : State} {op : Byte} (h : peek s.pc s = some op) (hl : opLength op = 1) :
    fetchInstr s = (decodeOp op 0 0, s.setPc (s.pc + 1)) := by
  unfold fetchInstr; simp [fetch8_of_peek h, hl]

/-- Fetching a two-byte instruction. -/
theorem fetchInstr_two {s : State} {op lo : Byte} (h : peek s.pc s = some op) (h1 : peek (s.pc + 1) s = some lo)
    (hl : opLength op = 2) : fetchInstr s = (decodeOp op lo 0, s.setPc (s.pc + 2)) := by
  have hf : fetch8 (s.setPc (s.pc + 1)) = (lo, (s.setPc (s.pc + 1)).setPc (s.pc + 1 + 1)) := fetch8_of_peek h1
  have e1 : s.pc + 1 + 1 = s.pc + 2 := by rw [BitVec.add_assoc]; rfl
  unfold fetchInstr
  rw [fetch8_of_peek h]
  dsimp only
  rw [if_neg (by rw [hl]; decide), hf]
  dsimp only
  rw [if_pos hl, e1]
  rfl

/-- Fetching a three-byte instruction. -/
theorem fetchInstr_three {s : State} {op lo hi : Byte} (h : peek s.pc s = some op) (h1 : peek (s.pc + 1) s = some lo)
    (h2 : peek (s.pc + 2) s = some hi) (hl : opLength op = 3) :
    fetchInstr s = (decodeOp op lo hi, s.setPc (s.pc + 3)) := by
  have e1 : s.pc + 1 + 1 = s.pc + 2 := by rw [BitVec.add_assoc]; rfl
  have e2 : s.pc + 2 + 1 = s.pc + 3 := by rw [BitVec.add_assoc]; rfl
  have hf : fetch8 (s.setPc (s.pc + 1)) = (lo, (s.setPc (s.pc + 1)).setPc (s.pc + 1 + 1)) := fetch8_of_peek h1
  have hg : fetch8 ((s.setPc (s.pc + 1)).setPc (s.pc + 2)) =
      (hi, ((s.setPc (s.pc + 1)).setPc (s.pc + 2)).setPc (s.pc + 2 + 1)) := fetch8_of_peek h2
  unfold fetchInstr
  rw [fetch8_of_peek h]
  dsimp only
  rw [if_neg (by rw [hl]; decide), hf]
  dsimp only
  rw [if_neg (by rw [hl]; decide), e1, hg, e2]
  rfl

/-- What fetching an instruction cannot change: all but PC and what bus reads can change. -/
theorem BusFrame.of_fetchInstr (s : State) : BusFrame (s.setPc (fetchInstr s).2.pc) (fetchInstr s).2 := by
  have step8 (t u : State) (h : BusFrame (t.setPc u.pc) u) :
      BusFrame (t.setPc (fetch8 u).2.pc) (fetch8 u).2 := by
    have hb := BusFrame.of_busRead u.pc u
    have hc := BusFrame.trans h hb
    unfold fetch8
    constructor <;> first | rfl | exact hc.apu | exact hc.cart | skip
    exacts [hc.a, hc.x, hc.y, hc.sp, hc.flags, hc.pending, hc.remaining, hc.clock, hc.diag, hc.frame, hc.params,
      hc.sprite0hit, hc.sprOverflow, hc.snap0, hc.snap1]
  have h1 := step8 s s (BusFrame.refl s)
  have h2 := step8 s _ h1
  have h3 := step8 s _ h2
  unfold fetchInstr
  dsimp only
  by_cases k1 : opLength (fetch8 s).1 = 1
  · rw [if_pos k1]; exact h1
  · rw [if_neg k1]
    by_cases k2 : opLength (fetch8 s).1 = 2
    · rw [if_pos k2]; exact h2
    · rw [if_neg k2]; exact h3

/-! ### The three steps -/

/-- Inside a `run` call with cycles left, the step is one iteration. -/
theorem step_running {s : State} (h : s.frame.phase = .running) (k : 0 < s.remaining) : step s = iteration s := by
  unfold step; simp [h, k]

/-- Inside a `run` call with no cycles left, the step is the line's end. -/
theorem step_exhausted {s : State} (h : s.frame.phase = .running) (k : s.remaining ≤ 0) :
    step s = .next (endLine s) := by
  unfold step; simp [h, show ¬ 0 < s.remaining by omega]

/-- At the start of a line, the step leads into its `run` call. -/
theorem step_lineStart {s : State} (h : s.frame.phase = .lineStart) : step s = .next (startLine s) := by
  unfold step; simp [h]

/-- After the run has ended nothing moves. -/
theorem step_ended {s : State} (h : s.frame.phase = .ended) : step s = .next s := by
  unfold step; simp [h]

end Sys2Proof.Machine
end

