-- ==== Sys2Proof/Tests/Slice0.lean ====
section
/-!
SUPPORT. The model's own tests: words of the opcode table, one step per instruction, the spec's worked examples,
and a witness for every statement that has hypotheses. Expected values come from spec/95_test_vectors.md and the
rules' examples; each section names its source.
-/

namespace Sys2Proof.Tests

open Sys2Proof Sys2Proof.Machine

/-! ### Helpers -/

/-- The start state of 95_test_vectors.md: PC = 0x8000 in one page of PRG that begins with `bytes`, A = X = Y = 0,
S = 0xFF, no flag set, nothing pending, inside a `run` call with 100 cycles left. -/
def at8000 (bytes : List Byte) : State :=
  { State.reset with
    pc := 0x8000, remaining := 100
    flags := { c := false, z := false, i := false, d := false, b := false, v := false, n := false }
    frame := { Frame.reset with phase := .running }
    cart := { Cartridge.blank with prg := Memory.cellsFrom 0 bytes } }

/-- The state after one step. -/
def ran (s : State) : Option State :=
  match step s with
  | .next t => some t
  | .fault _ => none
  | .refused _ => none

/-- One field or several after one step. -/
def after {α : Type} (s : State) (f : State → α) : Option α := (ran s).map f

/-- N, V, Z and C. -/
def nvzc (s : State) : List Bool := [s.flags.n, s.flags.v, s.flags.z, s.flags.c]

/-- Set flags of a state from N, V, Z and C. -/
def withNvzc (n v z c : Bool) (s : State) : State := { s with flags := { s.flags with n := n, v := v, z := z, c := c } }

/-- The cost of one step, read off `clock`. -/
def cost (s : State) : Nat := s.clock

/-! ### Well-formedness: `ill` only with an unknown opcode (R230) -/

theorem test_wf_refuses_documented_opcodes :
    (Instr.ill 0x00).wf = false ∧ (Instr.ill 0xA9).wf = false ∧ (Instr.ill 0xEA).wf = false := by decide

theorem test_wf_accepts : (Instr.ill 0x02).wf = true ∧ (Instr.ill 0xFF).wf = true ∧ (Instr.lda (.imm 0)).wf = true := by
  decide

theorem test_unknown_and_documented_opcodes_fill_the_map :
    unknownOpcodes.length = 105 ∧ unknownOpcodes.Nodup := by decide

/-! ### Decoding: words written out from R202 and R250 -/

/-- The decoder reads exactly these bytes as this instruction. -/
def reads (bs : List Byte) (i : Instr) : Bool :=
  match decode bs with
  | .ok (j, []) => j == i
  | _ => false

theorem test_decode_load_store :
    reads [0b10101001, 0b10000000] (.lda (.imm 0x80)) ∧ reads [0xBD, 0xFF, 0x02] (.lda (.absX 0x02FF)) ∧
    reads [0xA1, 0xFE] (.lda (.indX 0xFE)) ∧ reads [0xB1, 0xFF] (.lda (.indY 0xFF)) ∧
    reads [0xB6, 0xF0] (.ldx (.zpY 0xF0)) ∧ reads [0xBE, 0x34, 0x12] (.ldx (.absY 0x1234)) ∧
    reads [0xA0, 0x7F] (.ldy (.imm 0x7F)) ∧ reads [0xB4, 0x10] (.ldy (.zpX 0x10)) ∧
    reads [0x9D, 0x00, 0x02] (.sta (.absX 0x0200)) ∧ reads [0x91, 0x40] (.sta (.indY 0x40)) ∧
    reads [0x96, 0x02] (.stx (.zpY 0x02)) ∧ reads [0x8C, 0x00, 0x08] (.sty (.abs 0x0800)) := by decide

theorem test_decode_transfer :
    reads [0b10101010] .tax ∧ reads [0b10101000] .tay ∧ reads [0b10001010] .txa ∧ reads [0b10011000] .tya ∧
    reads [0b10111010] .tsx ∧ reads [0b10011010] .txs := by decide

theorem test_decode_arithmetic :
    reads [0b01101001, 0b01010000] (.adc (.imm 0x50)) ∧ reads [0x79, 0x01, 0x80] (.adc (.absY 0x8001)) ∧
    reads [0b11101001, 0b00000001] (.sbc (.imm 0x01)) ∧ reads [0xF5, 0x20] (.sbc (.zpX 0x20)) ∧
    reads [0x29, 0x0F] (.and (.imm 0x0F)) ∧ reads [0x09, 0x80] (.ora (.imm 0x80)) ∧
    reads [0x0D, 0x00, 0x02] (.ora (.abs 0x0200)) ∧ reads [0x49, 0xFF] (.eor (.imm 0xFF)) ∧
    reads [0xC9, 0x10] (.cmp (.imm 0x10)) ∧ reads [0xE0, 0x04] (.cpx (.imm 0x04)) ∧
    reads [0xC4, 0x05] (.cpy (.zp 0x05)) ∧ reads [0x2C, 0x00, 0x02] (.bit (.abs 0x0200)) := by decide

theorem test_decode_increment_shift :
    reads [0xE6, 0x10] (.inc (.zp 0x10)) ∧ reads [0xDE, 0xFF, 0x02] (.dec (.absX 0x02FF)) ∧
    reads [0b11101000] .inx ∧ reads [0b11001000] .iny ∧ reads [0b11001010] .dex ∧ reads [0b10001000] .dey ∧
    reads [0b00001010] (.asl .acc) ∧ reads [0b01001010] (.lsr .acc) ∧ reads [0b00111110, 0x34, 0x12] (.rol (.absX 0x1234)) ∧
    reads [0x66, 0x20] (.ror (.zp 0x20)) := by decide

theorem test_decode_branch :
    reads [0b00010000, 0xFE] (.bpl 0xFE) ∧ reads [0b00110000, 0x10] (.bmi 0x10) ∧ reads [0b01010000, 0x20] (.bvc 0x20) ∧
    reads [0b01110000, 0x80] (.bvs 0x80) ∧ reads [0b10010000, 0x7F] (.bcc 0x7F) ∧ reads [0b10110000, 0x00] (.bcs 0x00) ∧
    reads [0b11010000, 0xF0] (.bne 0xF0) ∧ reads [0b11110000, 0x05] (.beq 0x05) := by decide

theorem test_decode_jump :
    reads [0b01001100, 0x34, 0x12] (.jmp (.abs 0x1234)) ∧ reads [0b01101100, 0xFF, 0x02] (.jmp (.ind 0x02FF)) ∧
    reads [0b00100000, 0x00, 0x90] (.jsr 0x9000) ∧ reads [0b01100000] .rts := by decide

theorem test_decode_stack_flags_system :
    reads [0b01001000] .pha ∧ reads [0b01101000] .pla ∧ reads [0b00001000] .php ∧ reads [0b00101000] .plp ∧
    reads [0x18] .clc ∧ reads [0x38] .sec ∧ reads [0x58] .cli ∧ reads [0x78] .sei ∧ reads [0xD8] .cld ∧
    reads [0xF8] .sed ∧ reads [0xB8] .clv ∧ reads [0b00000000, 0xAA] (.brk 0xAA) ∧ reads [0b01000000] .rti ∧
    reads [0b11101010] .nop ∧ reads [0b00000010] (.ill 0x02) ∧ reads [0x0C] (.ill 0x0C) := by decide

/-- A list that ends inside an instruction is refused by name; bits above the table's width are 0. -/
theorem test_decode_short_lists :
    decodeTableWord 16 0x80A9 = some (.lda (.imm 0x80)) ∧ decodeTableWord 24 0x900020 = some (.jsr 0x9000) ∧
    decodeTableWord 8 0xFF4C = some (.jmp (.abs 0x0000)) ∧ reads [] .nop = false ∧ reads [0xA9] (.lda (.imm 0)) = false ∧
    reads [0x4C, 0x00] (.jmp (.abs 0)) = false := by decide

/-! ### Lengths and base costs (opcode_table.json `length_bytes`, `base_cycles`) -/

/-- Every listed opcode has this length and base cost. -/
def costs (len cycles : Nat) (ops : List Byte) : Bool :=
  ops.all (fun op => opLength op == len && baseCycles (decodeOp op 0 0) == cycles)

theorem test_table_one_byte_opcodes :
    costs 1 2
      [0x0A, 0x18, 0x2A, 0x38, 0x4A, 0x58, 0x6A, 0x78, 0x88, 0x8A, 0x98, 0x9A, 0xA8, 0xAA, 0xB8, 0xBA,
        0xC8, 0xCA, 0xD8, 0xE8, 0xEA, 0xF8] ∧
    costs 1 3
      [0x08, 0x48] ∧
    costs 1 4
      [0x28, 0x68] ∧
    costs 1 6
      [0x40, 0x60] := by decide

theorem test_table_two_byte_opcodes :
    costs 2 2
      [0x09, 0x10, 0x29, 0x30, 0x49, 0x50, 0x69, 0x70, 0x90, 0xA0, 0xA2, 0xA9, 0xB0, 0xC0, 0xC9, 0xD0,
        0xE0, 0xE9, 0xF0] ∧
    costs 2 3
      [0x05, 0x24, 0x25, 0x45, 0x65, 0x84, 0x85, 0x86, 0xA4, 0xA5, 0xA6, 0xC4, 0xC5, 0xE4, 0xE5] ∧
    costs 2 4
      [0x15, 0x35, 0x55, 0x75, 0x94, 0x95, 0x96, 0xB4, 0xB5, 0xB6, 0xD5, 0xF5] ∧
    costs 2 5
      [0x06, 0x11, 0x26, 0x31, 0x46, 0x51, 0x66, 0x71, 0xB1, 0xC6, 0xD1, 0xE6, 0xF1] ∧
    costs 2 6
      [0x01, 0x16, 0x21, 0x36, 0x41, 0x56, 0x61, 0x76, 0x81, 0x91, 0xA1, 0xC1, 0xD6, 0xE1, 0xF6] ∧
    costs 2 7
      [0x00] := by decide

theorem test_table_three_byte_opcodes :
    costs 3 3
      [0x4C] ∧
    costs 3 4
      [0x0D, 0x19, 0x1D, 0x2C, 0x2D, 0x39, 0x3D, 0x4D, 0x59, 0x5D, 0x6D, 0x79, 0x7D, 0x8C, 0x8D, 0x8E,
        0xAC, 0xAD, 0xAE, 0xB9, 0xBC, 0xBD, 0xBE, 0xCC, 0xCD, 0xD9, 0xDD, 0xEC, 0xED, 0xF9, 0xFD] ∧
    costs 3 5
      [0x6C, 0x99, 0x9D] ∧
    costs 3 6
      [0x0E, 0x20, 0x2E, 0x4E, 0x6E, 0xCE, 0xEE] ∧
    costs 3 7
      [0x1E, 0x3E, 0x5E, 0x7E, 0xDE, 0xFE] := by decide

theorem test_table_unknown_opcodes : costs 1 2 unknownOpcodes := by decide

/-! ### One step per instruction (95_test_vectors.md 2.1-2.8 and the rules' examples) -/

theorem test_lda_zpx_wraps :
    after { at8000 [0xB5, 0xFF] with x := 2, ram := [(1, 0x42)] } (fun t => (t.a, nvzc t, cost t, t.pc)) =
      some (0x42, [false, false, false, false], 4, 0x8002) := by decide

theorem test_lda_indy_crosses :
    after { at8000 [0xB1, 0xFF] with y := 1, ram := [(0, 0x02), (0xFF, 0xFF), (0x300, 0x5C)] }
      (fun t => (t.a, nvzc t, cost t)) = some (0x5C, [false, false, false, false], 6) := by decide

theorem test_lda_absx_penalty_by_parameter :
    after { at8000 [0xBD, 0xFF, 0x02] with x := 1, ram := [(0x300, 0x99)] } (fun t => (t.a, t.flags.n, cost t)) =
      some (0x99, true, 5) ∧
    after { at8000 [0xBD, 0xFF, 0x02] with x := 1, params := { resetParams with penalties := .none } } cost = some 4 := by
  decide

theorem test_lda_indx :
    after { at8000 [0xA1, 0xFE] with x := 1, ram := [(0, 0x03), (0x300, 0x9A)] }
      (fun t => (t.a, nvzc t, cost t)) = some (0x9A, [true, false, false, false], 6) := by decide

theorem test_ldx_zpy_wraps :
    after { at8000 [0xB6, 0xF0] with y := 0x20, ram := [(0x10, 0x33)] } (fun t => (t.x, nvzc t, cost t)) =
      some (0x33, [false, false, false, false], 4) := by decide

theorem test_ldx_zero : after (at8000 [0xA2, 0x00]) (fun t => (t.x, nvzc t)) = some (0, [false, false, true, false]) := by
  decide

theorem test_ldy : after (at8000 [0xA0, 0x7F]) (fun t => (t.y, nvzc t)) = some (0x7F, [false, false, false, false]) := by
  decide

theorem test_sta_absx_no_penalty :
    after { at8000 [0x9D, 0x00, 0x02] with a := 0x77, x := 5 } (fun t => (t.ram, nvzc t, cost t)) =
      some ([(0x205, 0x77)], [false, false, false, false], 5) := by decide

theorem test_sta_mirror :
    after { at8000 [0x8D, 0x05, 0x08] with a := 0x3C } (fun t => (t.ram, cost t)) = some ([(5, 0x3C)], 4) := by decide

theorem test_stx_zpy_wraps : after { at8000 [0x96, 0x02] with x := 5, y := 0xFF } (fun t => t.ram) = some [(1, 5)] := by
  decide

theorem test_sty_mirror : after { at8000 [0x8C, 0x00, 0x08] with y := 9 } (fun t => t.ram) = some [(0, 9)] := by decide

theorem test_tax : after { at8000 [0xAA] with a := 0x80 } (fun t => (t.x, nvzc t)) =
    some (0x80, [true, false, false, false]) := by decide

theorem test_tay : after { at8000 [0xA8] with y := 7 } (fun t => (t.y, nvzc t)) =
    some (0, [false, false, true, false]) := by decide

theorem test_txa : after { at8000 [0x8A] with x := 0x10 } (fun t => (t.a, nvzc t)) =
    some (0x10, [false, false, false, false]) := by decide

theorem test_tya : after { at8000 [0x98] with y := 0x80 } (fun t => (t.a, t.flags.n)) = some (0x80, true) := by decide

theorem test_tsx : after { at8000 [0xBA] with sp := 0 } (fun t => (t.x, nvzc t)) =
    some (0, [false, false, true, false]) := by decide

theorem test_txs_no_flags : after { at8000 [0x9A] with x := 0 } (fun t => (t.sp, nvzc t)) =
    some (0, [false, false, false, false]) := by decide

theorem test_adc_rows :
    after { at8000 [0x69, 0x50] with a := 0x50 } (fun t => (t.a, nvzc t)) = some (0xA0, [true, true, false, false]) ∧
    after { at8000 [0x69, 0x80] with a := 0x80 } (fun t => (t.a, nvzc t)) = some (0, [false, true, true, true]) ∧
    after { at8000 [0x69, 0xD0] with a := 0x90 } (fun t => (t.a, nvzc t)) = some (0x60, [false, true, false, true]) := by
  decide

theorem test_adc_carry_in :
    after (withNvzc false false false true { at8000 [0x69, 0xFF] with a := 0xFF }) (fun t => (t.a, nvzc t)) =
      some (0xFF, [true, false, false, true]) := by decide

theorem test_sbc_rows :
    after (withNvzc false false false true { at8000 [0xE9, 0xB0] with a := 0x50 }) (fun t => (t.a, nvzc t)) =
      some (0xA0, [true, true, false, false]) ∧
    after (withNvzc false false false true { at8000 [0xE9, 0x01] with a := 0x80 }) (fun t => (t.a, nvzc t)) =
      some (0x7F, [false, true, false, true]) := by decide

theorem test_sbc_borrow_in :
    after { at8000 [0xE9, 0x00] with a := 0 } (fun t => (t.a, nvzc t)) = some (0xFF, [true, false, false, false]) := by
  decide

theorem test_and : after { at8000 [0x29, 0x0F] with a := 0xF3 } (fun t => (t.a, nvzc t)) =
    some (0x03, [false, false, false, false]) := by decide

theorem test_ora : after { at8000 [0x09, 0x80] with a := 1 } (fun t => (t.a, t.flags.n)) = some (0x81, true) := by decide

theorem test_eor : after { at8000 [0x49, 0xFF] with a := 0x5A } (fun t => (t.a, nvzc t)) =
    some (0xA5, [true, false, false, false]) := by decide

theorem test_cmp_rows :
    after { at8000 [0xC9, 0x11] with a := 0x10 } (fun t => (t.a, nvzc t)) = some (0x10, [true, false, false, false]) ∧
    after { at8000 [0xC9, 0x01] with a := 0x80 } nvzc = some [false, false, false, true] ∧
    after { at8000 [0xC9, 0xFF] with a := 0x00 } nvzc = some [false, false, false, false] := by decide

theorem test_cpx : after { at8000 [0xE0, 0x04] with x := 4 } nvzc = some [false, false, true, true] := by decide

theorem test_cpy : after { at8000 [0xC0, 0x05] with y := 4 } nvzc = some [true, false, false, false] := by decide

theorem test_bit_zp : after { at8000 [0x24, 0x10] with a := 0x0F, ram := [(0x10, 0xC0)] } (fun t => (nvzc t, t.a, cost t)) =
    some ([true, true, true, false], 0x0F, 3) := by decide

theorem test_bit_abs_clears :
    after (withNvzc true true false false { at8000 [0x2C, 0x00, 0x02] with a := 1, ram := [(0x200, 1)] }) nvzc =
      some [false, false, false, false] := by decide

theorem test_inc_absx : after { at8000 [0xFE, 0xFF, 0x02] with x := 1, ram := [(0x300, 0x7F)] }
    (fun t => (t.ram, nvzc t, cost t)) = some ([(0x300, 0x80)], [true, false, false, false], 7) := by decide

theorem test_inc_wraps : after { at8000 [0xE6, 0x10] with ram := [(0x10, 0xFF)] } (fun t => (t.ram, nvzc t, cost t)) =
    some ([], [false, false, true, false], 5) := by decide

theorem test_dec_wraps : after (at8000 [0xC6, 0x10]) (fun t => (t.ram, nvzc t, cost t)) =
    some ([(0x10, 0xFF)], [true, false, false, false], 5) := by decide

theorem test_inx : after { at8000 [0xE8] with x := 0xFF } (fun t => (t.x, nvzc t)) =
    some (0, [false, false, true, false]) := by decide

theorem test_iny : after { at8000 [0xC8] with y := 0x7F } (fun t => (t.y, nvzc t)) =
    some (0x80, [true, false, false, false]) := by decide

theorem test_dex : after (at8000 [0xCA]) (fun t => (t.x, nvzc t)) = some (0xFF, [true, false, false, false]) := by decide

theorem test_dey : after { at8000 [0x88] with y := 0x80 } (fun t => (t.y, nvzc t)) =
    some (0x7F, [false, false, false, false]) := by decide

theorem test_asl : after { at8000 [0x0A] with a := 0x81 } (fun t => (t.a, nvzc t)) =
    some (0x02, [false, false, false, true]) := by decide

theorem test_asl_memory : after { at8000 [0x06, 0x20] with ram := [(0x20, 0x81)] } (fun t => (t.ram, nvzc t, cost t)) =
    some ([(0x20, 0x02)], [false, false, false, true], 5) := by decide

theorem test_lsr : after { at8000 [0x4A] with a := 1 } (fun t => (t.a, nvzc t)) =
    some (0, [false, false, true, true]) := by decide

theorem test_lsr_memory : after { at8000 [0x5E, 0x00, 0x02] with ram := [(0x200, 3)] } (fun t => (t.ram, nvzc t, cost t)) =
    some ([(0x200, 1)], [false, false, false, true], 7) := by decide

theorem test_rol : after (withNvzc false false false true { at8000 [0x2A] with a := 0x80 }) (fun t => (t.a, nvzc t)) =
    some (0x01, [false, false, false, true]) := by decide

theorem test_rol_no_carry : after { at8000 [0x2A] with a := 0x80 } (fun t => (t.a, nvzc t)) =
    some (0, [false, false, true, true]) := by decide

theorem test_ror : after (withNvzc false false false true { at8000 [0x6A] with a := 1 }) (fun t => (t.a, nvzc t)) =
    some (0x80, [true, false, false, true]) := by decide

theorem test_ror_memory :
    after (withNvzc false false false true { at8000 [0x66, 0x20] with ram := [(0x20, 0x02)] }) (fun t => (t.ram, nvzc t)) =
      some ([(0x20, 0x81)], [true, false, false, false]) := by decide

theorem test_bpl : after (at8000 [0x10, 0xFE]) (fun t => (t.pc, cost t)) = some (0x8000, 3) ∧
    after (withNvzc true false false false (at8000 [0x10, 0xFE])) (fun t => (t.pc, cost t)) = some (0x8002, 2) := by decide

theorem test_bmi : after (withNvzc true false false false (at8000 [0x30, 0x10])) (fun t => (t.pc, cost t)) =
    some (0x8012, 3) := by decide

theorem test_bvc_other_page :
    after { at8000 [] with pc := 0x00F0, ram := [(0xF0, 0x50), (0xF1, 0x20)] } (fun t => (t.pc, cost t)) =
      some (0x0112, 4) := by decide

theorem test_bvs_backwards : after (withNvzc false true false false (at8000 [0x70, 0x80])) (fun t => (t.pc, cost t)) =
    some (0x7F82, 4) := by decide

theorem test_bcc : after (at8000 [0x90, 0x7F]) (fun t => (t.pc, cost t)) = some (0x8081, 3) := by decide

theorem test_bcs_offset_zero : after (withNvzc false false false true (at8000 [0xB0, 0x00])) (fun t => (t.pc, cost t)) =
    some (0x8002, 3) := by decide

theorem test_bne : after (at8000 [0xD0, 0x02]) (fun t => (t.pc, cost t)) = some (0x8004, 3) ∧
    after (withNvzc false false true false (at8000 [0xD0, 0x02])) (fun t => (t.pc, cost t)) = some (0x8002, 2) := by decide

theorem test_beq_wraps_past_ffff :
    after (withNvzc false false true false
        { at8000 [] with pc := 0xFFF0, cart := { Cartridge.blank with prg := [(0x3FF0, 0xF0), (0x3FF1, 0x20)] } })
      (fun t => (t.pc, cost t)) = some (0x0012, 4) := by decide

theorem test_jmp_abs : after (at8000 [0x4C, 0x34, 0x12]) (fun t => (t.pc, cost t)) = some (0x1234, 3) := by decide

theorem test_jmp_ind_wraps_in_page :
    after { at8000 [0x6C, 0xFF, 0x02] with ram := [(0x200, 0x90), (0x300, 0x80)] } (fun t => (t.pc, cost t)) =
      some (0x9000, 5) := by decide

theorem test_jsr_stack_wraps : after { at8000 [0x20, 0x00, 0x90] with sp := 0 } (fun t => (t.pc, t.sp, t.ram, cost t)) =
    some (0x9000, 0xFE, [(0x100, 0x80), (0x1FF, 0x02)], 6) := by decide

theorem test_rts : after { at8000 [0x60] with sp := 0xFD, ram := [(0x1FE, 0x02), (0x1FF, 0x80)] }
    (fun t => (t.pc, t.sp, cost t)) = some (0x8003, 0xFF, 6) := by decide

theorem test_pha_wraps : after { at8000 [0x48] with a := 0x99, sp := 0 } (fun t => (t.ram, t.sp, cost t)) =
    some ([(0x100, 0x99)], 0xFF, 3) := by decide

theorem test_pla_wraps : after { at8000 [0x68] with a := 5 } (fun t => (t.a, t.sp, nvzc t, cost t)) =
    some (0, 0, [false, false, true, false], 4) := by decide

theorem test_php :
    after { at8000 [0x08] with flags := { c := true, z := true, i := false, d := true, b := false, v := false, n := false } }
      (fun t => (t.ram, t.sp)) = some ([(0x1FF, 0x3B)], 0xFE) ∧
    after { at8000 [0x08] with flags := { c := true, z := false, i := true, d := false, b := false, v := false, n := true } }
      (fun t => (t.ram, cost t)) = some ([(0x1FF, 0xB5)], 3) := by decide

theorem test_plp : after { at8000 [0x28] with sp := 0xFE, ram := [(0x1FF, 0xCB)] } (fun t => (t.flags, t.sp, cost t)) =
    some ({ c := true, z := true, i := false, d := true, b := false, v := true, n := true }, 0xFF, 4) := by decide

/-- Every flag 1. -/
def allSet : Flags := { c := true, z := true, i := true, d := true, b := true, v := true, n := true }

theorem test_clc : after { at8000 [0x18] with flags := allSet } (fun t => t.flags) = some { allSet with c := false } := by
  decide

theorem test_sec : after (at8000 [0x38]) (fun t => (t.flags.c, cost t)) = some (true, 2) := by decide

theorem test_cli : after { at8000 [0x58] with flags := allSet } (fun t => t.flags) = some { allSet with i := false } := by
  decide

theorem test_sei : after (at8000 [0x78]) (fun t => (t.flags.i, cost t)) = some (true, 2) := by decide

theorem test_cld : after { at8000 [0xD8] with flags := allSet } (fun t => t.flags) = some { allSet with d := false } := by
  decide

theorem test_sed : after (at8000 [0xF8]) (fun t => (t.flags.d, cost t)) = some (true, 2) := by decide

theorem test_clv : after { at8000 [0xB8] with flags := allSet } (fun t => t.flags) = some { allSet with v := false } := by
  decide

theorem test_brk :
    after { at8000 [0x00, 0xAA] with pending := none } (fun t => (t.ram, t.sp, [t.flags.i, t.flags.b], t.pc)) =
      some ([(0x1FD, 0x30), (0x1FE, 0x02), (0x1FF, 0x80)], 0xFC, [true, true], 0x0000) ∧
    after (at8000 [0x00, 0xAA]) cost = some 7 := by decide

theorem test_rti : after { at8000 [0x40] with sp := 0xFC, ram := [(0x1FD, 0x04), (0x1FE, 0x34), (0x1FF, 0x12)] }
    (fun t => (t.flags, t.pc, t.sp, cost t)) =
      some ({ c := false, z := false, i := true, d := false, b := false, v := false, n := false }, 0x1234, 0xFF, 6) := by
  decide

theorem test_nop : after (at8000 [0xEA]) (fun t => { t with pc := 0, clock := 0, remaining := 0 }) =
    some { at8000 [0xEA] with pc := 0, clock := 0, remaining := 0 } := by decide

theorem test_ill :
    after (at8000 [0x0C, 0x34, 0x12]) (fun t => (t.pc, t.diag, cost t, t.ram)) =
      some (0x8001, [{ opcode := 0x0C, addr := 0x8000 }], 2, []) := by decide

theorem test_ill_at_zero : after { at8000 [] with pc := 0xFFFF, cart := { Cartridge.blank with prg := [(0x3FFF, 0x02)] } }
    (fun t => (t.pc, t.diag)) = some (0x0000, [{ opcode := 0x02, addr := 0xFFFF }]) := by decide

theorem test_fetch_wraps_past_ffff :
    after { at8000 [] with pc := 0xFFFE, ram := [(0, 0x12)]
                           cart := { Cartridge.blank with prg := [(0x3FFE, 0x4C), (0x3FFF, 0x34)] } }
      (fun t => t.pc) = some 0x1234 := by decide

/-! ### Interrupts, the run loop, reset (60_exceptions.md R822; 95_test_vectors.md 2.9, 2.10) -/

/-- R822: an IRQ is taken, and the RTI at its handler returns in the same iteration. -/
theorem test_irq_entry_example :
    let s := { at8000 [] with
      pc := 0x8123, sp := 0xFD, pending := some .irq
      flags := { c := false, z := true, i := false, d := false, b := false, v := false, n := false }
      cart := { Cartridge.blank with prg := [(0x100, 0x40), (0x3FFF, 0xC1)] } }
    (service s).ram = [(0x1FB, 0x22), (0x1FC, 0x23), (0x1FD, 0x81)] ∧
      ((service s).sp, [(service s).flags.i, (service s).flags.b], (service s).pc) = (0xFA, [true, false], 0xC100) ∧
      ((service s).pending, (service s).cost) = (none, 7) ∧
      after s (fun t => (t.pc, t.sp, [t.flags.i, t.flags.z], cost t)) = some (0x8123, 0xFD, [false, true], 13) := by decide

/-- V-INT-2: an NMI is taken although I is 1. -/
theorem test_nmi_ignores_i :
    let s := { at8000 [] with
      pending := some .nmi, flags := { (at8000 []).flags with i := true }
      cart := { Cartridge.blank with prg := [(0x70, 0xA9), (0x71, 0x55), (0x3FFA, 0x70), (0x3FFB, 0x80)] } }
    after s (fun t => (t.ram, t.a, t.pc, cost t)) = some ([(0x1FD, 0x24), (0x1FF, 0x80)], 0x55, 0x8072, 9) ∧
      after s (fun t => (t.flags.b, t.pending)) = some (false, none) := by decide

/-- V-INT-3 and V-INT-4: a masked IRQ waits under retain and is lost under drop. -/
theorem test_masked_irq_by_parameter :
    let s := { at8000 [0xEA] with pending := some .irq, flags := { (at8000 []).flags with i := true } }
    after s (fun t => (t.pending, t.pc, cost t)) = some (some .irq, 0x8001, 2) ∧
      after { s with params := { resetParams with maskedIrq := .drop } } (fun t => (t.pending, t.pc, cost t)) =
        some (none, 0x8001, 2) := by decide

/-- V-INT-5: the last request wins. -/
theorem test_last_request_wins : (request .irq (request .nmi (at8000 []))).pending = some .irq := by decide

/-- V-INT-6, in what is no draw. -/
theorem test_reset_service :
    let s := { at8000 [0xEA] with
      pending := some .reset, pc := 0x1234, sp := 3
      cart := { Cartridge.blank with prg := [(0, 0xEA), (0x3FFD, 0x80)] } }
    after s (fun t => (t.pc, t.sp, t.flags.i, cost t)) = some (0x8001, 0xFF, true, 9) ∧
      after s (fun t => t.pending) = some none := by decide

/-- V-INT-7: BRK leaves a masked IRQ pending. -/
theorem test_brk_leaves_the_slot :
    after { at8000 [0x00, 0xAA] with pending := some .irq, flags := { (at8000 []).flags with i := true } }
      (fun t => (t.pending, t.sp)) = some (some .irq, 0xFC) := by decide

/-- The first iteration of `run(3)` (2.10): remaining 3 becomes 1; a negative balance runs nothing. -/
theorem test_run_budget :
    after { at8000 [0xEA] with remaining := 1 } (fun t => (t.remaining, t.clock, t.pc)) = some (-1, 2, 0x8001) ∧
      ¬ (0 < ({ at8000 [0xEA] with remaining := 0 } : State).remaining) := by decide

/-- An image with a 16-byte header and no listed byte: PRG pages, CHR pages, bytes 6 and 7. -/
def headed (prgPages chrPages b6 b7 : Byte) : Image :=
  { header := [0x4E, 0x45, 0x53, 0x1A, prgPages, chrPages, b6, b7] ++ List.replicate 8 0, prg := [], chr := [] }

/-- T6 of part 1: one PRG page, mapper 0: PC is the word at PRG offset 0x3FFC. -/
theorem test_power_on_scenario :
    (match powerOn { headed 1 0 0 0 with prg := [(0x3FFD, 0x80)] } State.reset with
      | .ok s => (s.pc, s.sp, s.flags.i, s.pending, chrSize s.cart)
      | .error _ => (0, 0, false, some .nmi, 0)) = (0x8000, 0xFF, true, none, 8192) := by decide

/-- R75, R1340: with no CHR page the CHR RAM holds the draw; with one, the CHR ROM is the image's. -/
theorem test_power_on_chr :
    let draw := { State.reset with cart := { Cartridge.blank with chr := [(7, 0x5A)] } }
    let chr (pages : Byte) : Option Memory :=
      (powerOn { headed 1 pages 0 0 with chr := [(9, 0x33)] } draw).toOption.map (fun s => s.cart.chr)
    chr 0 = some [(7, 0x5A)] ∧ chr 1 = some [(9, 0x33)] := by decide

/-- R960: an image that loads, one whose PRG lists a byte beyond its page, and one that is refused. -/
theorem test_loaded_images :
    Image.loaded { headed 1 1 0x30 0 with prg := [(0x3FFF, 1)], chr := [(0x1FFF, 1)] } ∧
      ¬ Image.loaded { headed 1 0 0 0 with prg := [(0x4000, 1)] } ∧ ¬ (headed 1 0 0x40 0).loaded := by decide

/-- R960: an NMI source, an IRQ source with I = 0 and with I = 1, and none; D set before an ADC and before a NOP. -/
theorem test_launch_premises :
    let s (ctrl latch : Byte) : State :=
      { at8000 [0xEA] with ppu := { Ppu.reset with ctrl := ctrl }, apu := { Apu.reset with frameLatch := latch } }
    let masked (t : State) : State := { t with flags := { t.flags with i := true } }
    let decimal (t : State) : State := { t with flags := { t.flags with d := true } }
    (¬ (masked (s 0x80 0x40)).quietNow ∧ ¬ (s 0x00 0x00).quietNow ∧ (masked (s 0x00 0x00)).quietNow ∧
      (s 0x00 0x40).quietNow) ∧
      [(decimal (at8000 [0x69, 1])).dClearNow, (at8000 [0x69, 1]).dClearNow, (decimal (at8000 [0xEA])).dClearNow] =
        [false, true, true] := by decide

/-- V-MAP-1 and R802: what the header says. -/
theorem test_header_fields :
    let h (n b6 b7 : Byte) : Image := { header := [0x4E, 0x45, 0x53, 0x1A, n, 0, b6, b7], prg := [], chr := [] }
    (h 1 0x10 0).mapperNumber = 1 ∧ (h 1 0x21 0).mapperNumber = 2 ∧ headerMirroring (h 1 0x21 0).cartridge = .vertical ∧
      headerMirroring (h 1 0x08 0).cartridge = .fourScreen ∧ (h 1 0x40 0x10).mapperNumber = 20 ∧
      (h 1 0x40 0x10).variant = .error (.unsupportedMapper 20) ∧ (h 0 0 0).variant = .error .noPrg ∧
      Image.variant { header := [0x4E, 0x45, 0x53, 0x1B, 1], prg := [], chr := [] } = .error .badMagic := by decide

/-- `step` runs a word placed after reset. -/
theorem test_with_fetch_word :
    after (State.reset.withFetchWord 16 0x80A9) (fun t => (t.a, t.flags.n, t.pc)) = some (0x80, true, 0x0002) ∧
      after (State.reset.withFetchWord 24 0x023C8D) (fun t => t.ram) = some [(0, 0x8D), (1, 0x3C), (2, 0x02)] := by decide

/-! ### Memory map, PPU, pads, OAM DMA (95_test_vectors.md 2.11-2.13) -/

/-- A write through one RAM mirror is read through the others. -/
theorem test_ram_mirrors :
    let t := busWrite 0x0805 0xAB (at8000 [])
    ((busRead 0x0005 t).1, (busRead 0x1005 t).1, (busRead 0x1805 t).1) = (0xAB, 0xAB, 0xAB) := by decide

/-- The PPU ports repeat every 8 bytes. -/
theorem test_port_mirror : (busWrite 0x2008 0x80 (at8000 [])).ppu.ctrl = 0x80 := by decide

/-- One PRG page is seen twice, two pages once each. -/
theorem test_prg_windows :
    let s := { at8000 [] with cart := { Cartridge.blank with prg := [(0x3FFC, 0x11), (0x7FFC, 0x22)] } }
    let two := { Cartridge.blank with prgPages := 2, prg := [(0x3FFC, 0x11), (0x7FFC, 0x22)] }
    (busRead 0xFFFC s).1 = 0x11 ∧ (busRead 0xBFFC s).1 = 0x11 ∧
      (busRead 0xFFFC { s with cart := two, mapper := { regs := .fixedBank, win := recompute two .fixedBank } }).1 = 0x22 := by
  decide

/-- The horizontal row of the aliasing table, and the single-screen one. -/
theorem test_nametable_aliasing :
    let h := ppuWrite 0x2005 0x5A (changeMirroring .horizontal (at8000 []))
    let o := ppuWrite 0x2005 0x5A (changeMirroring .singleScreen0 (at8000 []))
    [ppuRead 0x2405 h, ppuRead 0x3005 h, ppuRead 0x3405 h, ppuRead 0x2805 h, ppuRead 0x2C05 h] =
        [0x5A, 0x5A, 0x5A, 0, 0] ∧
      [ppuRead 0x2405 o, ppuRead 0x2805 o, ppuRead 0x2C05 o] = [0x5A, 0x5A, 0x5A] := by decide

/-- The vertical row, and the four-screen one. -/
theorem test_nametable_independence :
    let v := ppuWrite 0x2005 0x5A (changeMirroring .vertical (at8000 []))
    let f := ppuWrite 0x2005 0x5A (changeMirroring .fourScreen (at8000 []))
    [ppuRead 0x2805 v, ppuRead 0x3005 v, ppuRead 0x3805 v, ppuRead 0x2405 v, ppuRead 0x2C05 v] =
        [0x5A, 0x5A, 0x5A, 0, 0] ∧
      [ppuRead 0x3005 f, ppuRead 0x2405 f, ppuRead 0x2805 f, ppuRead 0x2C05 f] = [0x5A, 0, 0, 0] := by decide

/-- The palette index table. -/
theorem test_palette_index :
    [0x3F00#14, 0x3F04, 0x3F10, 0x3F14, 0x3F11, 0x3F1C, 0x3F30, 0x3F3F].map palIndex =
      [0x00, 0x04, 0x00, 0x04, 0x11, 0x0C, 0x00, 0x1F] := by decide

/-- V-PPU-1, R1025: each write of the packing example. -/
theorem test_scroll_packing_example :
    let p1 := ppuPortWrite 5 0x7D (at8000 [])
    let p2 := ppuPortWrite 5 0x5E p1
    let p3 := ppuPortWrite 6 0x3D p2
    let p4 := ppuPortWrite 6 0xF0 p3
    (p1.ppu.t, p1.ppu.x, p1.ppu.w) = (0x000F, 5, true) ∧ (p2.ppu.t, p2.ppu.w) = (0x616F, false) ∧
      (p3.ppu.t, p3.ppu.w) = (0x3D6F, true) ∧ (p4.ppu.t, p4.ppu.v, p4.ppu.w) = (0x3DF0, 0x3DF0, false) := by decide

/-- V-PPU-2: reads of $2007 are one behind. -/
theorem test_buffered_reads :
    let s := { at8000 [] with ppu := { Ppu.reset with rdbuf := 0x11, nt := [(0x100, 0x22), (0x101, 0x33), (0x102, 0x44)] } }
    let s := ppuPortWrite 6 0x00 (ppuPortWrite 6 0x21 s)
    let r1 := ppuPortRead 7 s
    let r2 := ppuPortRead 7 r1.2
    let r3 := ppuPortRead 7 r2.2
    (r1.1, r2.1, r3.1) = (0x11, 0x22, 0x33) ∧ (r3.2.ppu.v, r3.2.ppu.rdbuf) = (0x2103, 0x44) := by decide

/-- V-PPU-3 and V-PPU-4: palette reads are direct; the increment of 32. -/
theorem test_palette_read_and_increment :
    let s := { at8000 [] with ppu := { Ppu.reset with v := 0x3F01, pal := [(1, 0x2A)], nt := [(0x701, 0x77)] } }
    let r := ppuPortRead 7 s
    let w := ppuPortWrite 7 0x01 { at8000 [] with ppu := { Ppu.reset with ctrl := 0x04, v := 0x2000 } }
    (r.1, r.2.ppu.rdbuf, r.2.ppu.v) = (0x2A, 0x77, 0x3F02) ∧ (w.ppu.nt, w.ppu.v) = ([(0, 0x01)], 0x2020) := by decide

/-- V-PPU-5: a $2002 read, whatever the five drawn bits are. -/
theorem test_status_read :
    let s := { at8000 [] with ppu := { Ppu.reset with vblank := true, sprite0hit := true, w := true } }
    (busRead 0x2002 s).1 &&& 0xE0 = 0xC0 ∧
      ((busRead 0x2002 s).2.ppu.vblank, (busRead 0x2002 s).2.ppu.w, (busRead 0x2002 s).2.ppu.sprite0hit) =
        (false, false, true) := by
  refine ⟨?_, by decide⟩
  show (0xC0 ||| (Config.freeByte 0 &&& 0x1F)) &&& 0xE0 = (0xC0 : Byte)
  generalize Config.freeByte 0 = r
  revert r; decide

/-- V-PPU-6 and V-PPU-7: PPUCTRL's nametable bits go to t; the OAM port steps. -/
theorem test_ctrl_and_oam_ports :
    let c := ppuPortWrite 0 0x03 (at8000 [])
    let o := ppuPortWrite 4 0x22 (ppuPortWrite 4 0x11 (ppuPortWrite 3 0xFE (at8000 [])))
    (c.ppu.t, c.ppu.v) = (0x0C00, 0) ∧ (o.ppu.oam, o.ppu.oamaddr) = ([(0xFE, 0x11), (0xFF, 0x22)], 0) := by decide

/-- R1033, R1034: coarse X wraps into the horizontal table, coarse Y from 29 into the vertical one, from 31 into none. -/
theorem test_scroll_steps :
    incCoarseX 0x001F = 0x0400 ∧ incY 0x73A0 = 0x0800 ∧ incY 0x73E0 = 0x0000 ∧ incY 0x7020 = 0x0040 ∧
      incY 0x0020 = 0x1020 := by decide

/-- V-IO-2: byte i of an OAM DMA goes to OAMADDR + i modulo 256. -/
theorem test_oam_dma_bytes :
    let s := { at8000 [] with ram := [(0x201, 1), (0x2F0, 0xF0)], ppu := { Ppu.reset with oamaddr := 0x10 } }
    (oamDmaByte 0x02 s 1).ppu.oam = [(0x11, 1)] ∧ (oamDmaByte 0x02 s 0xF0).ppu.oam = [(0, 0xF0)] := by decide

/-- V-IO-1 and V-RUN-2, in one step: the copied bytes, OAMADDR, the stall. -/
theorem test_oam_dma_store :
    after { at8000 [0x8D, 0x14, 0x40] with a := 2, remaining := 1, ram := [(0x202, 2), (0x2FF, 0xFF)] }
      (fun t => (t.ppu.oam, t.ppu.oamaddr, t.remaining)) = some ([(2, 2), (0xFF, 0xFF)], 0, -516) := by
  decide +kernel

/-- V-IO-3: A, Start and Right held; bit 0 of the first, second and eighth reads, whatever the drawn bits are. -/
theorem test_pad_reads :
    let snap : Vector Bool 8 := #v[true, false, false, true, false, false, false, true]
    (∀ r : Byte, (padByte snap 0 r).getLsbD 0 = true ∧ (padByte snap 1 r).getLsbD 0 = false ∧
      (padByte snap 7 r).getLsbD 0 = true ∧ padByte snap 8 r = r) ∧
    [padNext false 0, padNext false 7, padNext false 8, padNext true 5] = [1, 8, 8, 0] := by decide

/-- V-IO-4 and V-IO-5: the strobe is $4016's, not $4017's, and $4018 does nothing. -/
theorem test_strobe :
    let s := { at8000 [] with pads := { Pads.reset with idx0 := 3 } }
    ((busWrite 0x4016 1 s).pads.strobe, (busWrite 0x4016 1 s).pads.idx0) = (true, 0) ∧
      (busWrite 0x4016 0 s).pads.idx0 = 3 ∧ (busWrite 0x4017 1 s).pads = s.pads ∧ busWrite 0x4018 1 s = s := by decide

/-! ### APU (81_apu.md R1105, R1106, R1141, R1150; 95_test_vectors.md 2.14) -/

/-- The length table's four entries of the source, and the load only while enabled. -/
theorem test_length_loads :
    let u := { Apu.reset with pulse1 := { Pulse.reset with enabled := true } }
    let load (d : Byte) (u : Apu) : Byte := (Apu.apply { ts := 0, addr := 0x4003, val := d } u).pulse1.length
    [load 0x00 u, load 0x08 u, load 0x0F u, load 0xF0 u, load 0xF8 u] = [10, 254, 254, 32, 30] ∧
      load 0xF8 Apu.reset = 0 := by decide

/-- The DMC address and length formulas, and the direct load. -/
theorem test_dmc_registers :
    let w (a : Addr) (d : Byte) : Dmc := (Apu.apply { ts := 0, addr := a, val := d } Apu.reset).dmc
    [(w 0x4012 0x00).addrLatch, (w 0x4012 0x10).addrLatch, (w 0x4012 0xFF).addrLatch] = [0xC000, 0xC400, 0xFFC0] ∧
      [(w 0x4013 0).lenLatch, (w 0x4013 1).lenLatch, (w 0x4013 0xFF).lenLatch] = [1, 17, 4081] ∧
      ((w 0x4011 0x7F).counter, (w 0x4011 0x7F).lsb, (w 0x4011 0x7F).out) = (0x3F, true, 127) ∧
      (w 0x4011 0x40).out = 64 := by decide

/-- A $4015 write of 0 clears the lengths and the DMC; a write waits in the queue until it is applied. -/
theorem test_apu_status :
    let u := { Apu.reset with
      pulse1 := { Pulse.reset with length := 5 }, dmc := { Dmc.reset with bytesLeft := 9, irq := true } }
    u.status = 0x91 ∧ (u.statusWrite 0x00).status = 0x00 ∧
      (busWrite 0x4015 0 { at8000 [] with apu := u, clock := 7, cost := 4 }).apu =
        { u with queue := [{ ts := 11, addr := 0x4015, val := 0 }] } := by decide

/-- R1141: mode 0 taps bits 0 and 1, mode 1 bits 0 and 6. -/
theorem test_lfsr : lfsrStep false 1 = 0x4000 ∧ lfsrStep false 3 = 0x0001 ∧ lfsrStep true 0x41 = 0x0020 ∧
    lfsrStep true 0x40 = 0x4020 := by decide

/-- R1103: writes due at the sample time are applied in order, the rest wait. -/
theorem test_due_writes :
    let q : List DeferredWrite :=
      [{ ts := 1, addr := 0x4017, val := 0x40 }, { ts := 2, addr := 0x4017, val := 0xC0 }, { ts := 9, addr := 0x4017, val := 0 }]
    let u := Apu.applyDue 10 20 q Apu.reset
    (u.frameLatch, u.queue) = (0xC0, [{ ts := 9, addr := 0x4017, val := 0 }]) := by decide

/-- R1111, R1112: the envelope restarts and decays; the sweep's target. -/
theorem test_envelope_and_sweep :
    let e := Envelope.clock 3 false { start := true, divider := 0, decay := 0 }
    let p := { Pulse.reset with period := 0x100, swShift := 1, swEnable := true }
    (e.decay, e.divider) = (15, 3) ∧ (Envelope.clock 3 false { e with divider := 0 }).decay = 14 ∧
      p.sweepClock.period = 0x180 ∧ ({ p with swNegate := true }).sweepClock.period = 0x80 ∧
      ({ p with period := 7 }).muted = true ∧ ({ p with period := 0x700 }).muted = true := by decide

/-- R1151: a fetch takes the byte from PRG, and the address wraps from 0xFFFF to 0x8000. -/
theorem test_dmc_fetch :
    let s := { at8000 [] with
      cart := { Cartridge.blank with prg := [(0x3FFF, 0x55)] }
      apu := { Apu.reset with dmc := { Dmc.reset with addr := 0xFFFF, bytesLeft := 2 } } }
    ((dmcFetch s).apu.dmc.shift, (dmcFetch s).apu.dmc.addr, (dmcFetch s).apu.dmc.bytesLeft) = (0x55, 0x8000, 1) := by
  decide

/-- R1151: the last byte raises the DMC's IRQ when it is enabled and not looping. -/
theorem test_dmc_irq :
    let d := { Dmc.reset with addr := 0xC000, bytesLeft := 1, irqEnable := true, lenLatch := 17 }
    let s (d : Dmc) := { at8000 [] with apu := { Apu.reset with dmc := d } }
    ((dmcFetch (s d)).pending, (dmcFetch (s d)).apu.dmc.irq) = (some .irq, true) ∧
      ((dmcFetch (s { d with loop := true })).pending, (dmcFetch (s { d with loop := true })).apu.dmc.bytesLeft) =
        (none, 17) := by decide

/-! ### Mapper (95_test_vectors.md 2.15, 83_mapper.md R1329) -/

/-- The start state with a cartridge and a mapper variant. -/
def onMapper (prgPages chrPages : Nat) (r : MapperRegs) : State :=
  let c := { Cartridge.blank with prgPages := prgPages, chrPages := chrPages }
  { at8000 [] with cart := c, mapper := { regs := r, win := recompute c r } }

/-- V-MAP-2. -/
theorem test_prg_bank_select :
    let s := onMapper 4 0 (.prgBankSelect 0)
    ((busWrite 0x8000 2 s).mapper.win.prg0, (busWrite 0x8000 2 s).mapper.win.prg1) = (0x8000, 0xC000) ∧
      (busWrite 0x8000 5 s).mapper.regs = .prgBankSelect 1 := by decide

/-- V-MAP-3. -/
theorem test_chr_bank_select :
    let t := busWrite 0xC123 7 (onMapper 1 4 (.chrBankSelect 0))
    (t.mapper.regs, t.mapper.win.chr0, t.mapper.win.chr1) = (.chrBankSelect 3, 0x6000, 0x7000) := by decide

/-- R1329, V-MAP-4: five serial writes set prg; one write with bit 7 set starts over. -/
theorem test_shift_register_example :
    let s := onMapper 8 0 (.shiftReg Mmc1.powerOn)
    let t := Spec.serial 0xE000 0xE000 0xE000 0xE000 0xE000 3 0 0 0 0 s
    (t.mapper.regs, t.mapper.win.prg0, t.mapper.win.prg1) = (.shiftReg { Mmc1.powerOn with prg := 1 }, 0x4000, 0x1C000) ∧
      (busWrite 0x8000 0x80 (busWrite 0xE000 3 s)).mapper.regs = .shiftReg Mmc1.powerOn := by decide

/-- R1326: a control write sets the mirroring. -/
theorem test_control_write_mirrors :
    let s := onMapper 8 0 (.shiftReg Mmc1.powerOn)
    let t := Spec.serial 0x8000 0x8000 0x8000 0x8000 0x8000 0 1 0 0 0 s
    t.ppu.ntmap = ntmapOf .vertical ∧ t.mapper.regs = .shiftReg { Mmc1.powerOn with control := 2 } := by decide

/-- V-MAP-5 and R1303: CHR RAM takes writes, CHR ROM does not. -/
theorem test_chr_writes :
    (ppuWrite 0x1234 0x5A (onMapper 1 0 .fixedBank)).cart.chr = [(0x1234, 0x5A)] ∧
      ppuWrite 0x1234 0x5A (onMapper 1 1 .fixedBank) = onMapper 1 1 .fixedBank := by decide

/-! ### Frame driver (95_test_vectors.md 2.16) and rendering (80_ppu.md R1031, R1040, R1044) -/

/-- V-FRM-1 and V-FRM-2: after line 240 vblank is 1, and NMI follows PPUCTRL bit 7. -/
theorem test_vblank_nmi :
    let s (c : Byte) := { at8000 [] with ppu := { Ppu.reset with ctrl := c }, frame := { Frame.reset with line := 240 } }
    ((afterLine (s 0x80)).ppu.vblank, (afterLine (s 0x80)).pending) = (true, some .nmi) ∧
      ((afterLine (s 0x00)).ppu.vblank, (afterLine (s 0x00)).pending) = (true, none) ∧
      (afterLine { s 0x80 with frame := { Frame.reset with line := 239 } }).ppu.vblank = false := by decide

/-- R1252: the frame-end IRQ needs bits 7 and 6 of the $4017 latch clear. -/
theorem test_frame_irq :
    let s (v : Byte) := { at8000 [] with apu := { Apu.reset with frameLatch := v } }
    [(frameEndIrq (s 0x00)).pending, (frameEndIrq (s 0x40)).pending, (frameEndIrq (s 0x80)).pending] =
      [some .irq, none, none] := by decide

/-- R1250, R1262: line 261 clears the flags at its start, and ends the frame; the stop flag ends the run there. -/
theorem test_frame_end :
    let s := { at8000 [] with
      ppu := { Ppu.reset with vblank := true, sprite0hit := true }
      frame := { Frame.reset with line := 261, stop := true, fb := [(3, 0x21)] } }
    ((beforeLine s).ppu.vblank, (beforeLine s).ppu.sprite0hit) = (false, false) ∧
      ((endFrame s).frame.line, (endFrame s).frame.count, (endFrame s).frame.phase) = (0, 1, .ended) ∧
      (endFrame s).frame.display = [(3, 0x21)] := by decide

/-- R1031, R1032: tile 1 of the nametable, its row 0 planes 0x80 and 0x80, shows colour 3 in its first column. -/
theorem test_background_tile :
    let s := { at8000 [] with
      cart := { Cartridge.blank with chr := [(0x10, 0x80), (0x18, 0x80)] }
      ppu := { Ppu.reset with mask := 0x02, nt := [(0, 1), (0x3C0, 0x02)], pal := [(11, 0x2C)] } }
    (colourIndex (bgTile s).1 0, colourIndex (bgTile s).1 1, (bgTile s).2) = (3, 0, 2) ∧
      ((renderBackground (List.replicate 256 { colour := 0x0F, bgOpaque := false, sprOcc := false }) s).1.getD 0
        { colour := 0, bgOpaque := true, sprOcc := true }).colour = 0x2C := by decide +kernel

/-- R1040, R1041: an 8 x 8 sprite with OAM y 9 starts on line 10; its left column is bit 7, flipped its right one. -/
theorem test_sprite_columns :
    let s (attr : Byte) := { at8000 [] with
      cart := { Cartridge.blank with chr := [(0x20, 0x80)] }
      ppu := { Ppu.reset with oam := [(0, 9), (1, 2)] ++ (if attr = 0 then [] else [(2, attr)]) ++ [(3, 100)] } }
    (Spec.spriteColour 0 10 100 (s 0), Spec.spriteColour 0 10 101 (s 0), Spec.spriteColour 0 9 100 (s 0)) = (1, 0, 0) ∧
      (Spec.spriteColour 0 10 100 (s 0x40), Spec.spriteColour 0 10 107 (s 0x40)) = (0, 1) := by decide

/-! ### Witnesses: for every statement with hypotheses, a state and operands that meet them; for a statement with
several clauses, one for each at an edge of its range -/

/-- Any instruction of the table has a state that is about to run it: its bytes lie from 0x8000 on. -/
theorem about_to_run (bytes : List Byte) (h : bytes.length ≤ 3) : Spec.aboutToRun bytes (at8000 bytes) := by
  refine ⟨rfl, show (0 : Int) < 100 by decide, rfl, fun k hk => ?_⟩
  have hk3 : k < 3 := by omega
  have hread : ∀ off : Nat, off = k → (Memory.cellsFrom 0 bytes).read off = bytes[k] := by
    rintro off rfl
    rw [Memory.read_cellsFrom _ _ _ (Nat.zero_le _)]
    simp [List.getD_eq_getElem?_getD, hk]
  have hoff : ∀ a : Addr, prgOffset a (at8000 bytes) = prgOffset a (at8000 []) := fun _ => rfl
  have hprg : ∀ off : Nat, prgOffset (0x8000 + BitVec.ofNat 16 k) (at8000 []) = off → off = k →
      prgRead (0x8000 + BitVec.ofNat 16 k) (at8000 bytes) = bytes[k] := by
    intro off h1 h2
    exact (congrArg (Memory.read (Memory.cellsFrom 0 bytes)) ((hoff _).trans h1)).trans (hread off h2)
  obtain rfl | rfl | rfl : k = 0 ∨ k = 1 ∨ k = 2 := by omega
  · exact congrArg some (hprg 0 (by decide) rfl)
  · exact congrArg some (hprg 1 (by decide) rfl)
  · exact congrArg some (hprg 2 (by decide) rfl)

/-- O1, O2, O4. -/
theorem test_witness_encoding :
    (Instr.ill 0xFF).wf = true ∧ (Instr.lda (.indY 0xFF)).wf = true ∧
      decode [0xAD, 0xFF, 0xFF, 0x01] = .ok (.lda (.abs 0xFFFF), [0x01]) ∧
      decode [0xAD, 0x00] = .error (.truncated 0xAD) ∧ [(0x00 : Byte)].length + 1 < opLength 0xAD ∧
      (0x02 ∈ unknownOpcodes ∧ 0xFF ∈ unknownOpcodes) := by
  refine ⟨?_, ?_, rfl, rfl, ?_, ?_⟩ <;> decide

theorem test_witness_unknown_opcode_runs : Spec.aboutToRun [0xFF] (at8000 [0xFF]) := about_to_run _ (by decide)

/-- SRAM present. -/
def withSram : State := { at8000 [] with cart := { Cartridge.blank with hasSram := true }, sram := [(0, 0x11), (0x1FFF, 0x22)] }

/-- O5: both edges of every range. -/
theorem test_witness_bus_reads :
    (busRead 0x0000 withSram).1 = 0 ∧ (busRead 0x1FFF { at8000 [] with ram := [(0x7FF, 7)] }).1 = 7 ∧
      busRead 0x2000 (at8000 []) = drawByte (at8000 []) ∧ busRead 0x3FFF (at8000 []) = ppuPortRead 7 (at8000 []) ∧
      busRead 0x4000 (at8000 []) = drawByte (at8000 []) ∧ busRead 0x4014 (at8000 []) = drawByte (at8000 []) ∧
      busRead 0x4015 (at8000 []) = (0, at8000 []) ∧ busRead 0x4016 (at8000 []) = padRead0 (at8000 []) ∧
      busRead 0x4017 (at8000 []) = padRead1 (at8000 []) ∧ busRead 0x4018 (at8000 []) = drawByte (at8000 []) ∧
      busRead 0x401F (at8000 []) = drawByte (at8000 []) ∧ busRead 0x4020 (at8000 []) = (0, at8000 []) ∧
      busRead 0x5FFF (at8000 []) = (0, at8000 []) ∧ (busRead 0x6000 withSram).1 = 0x11 ∧
      (busRead 0x7FFF withSram).1 = 0x22 ∧ busRead 0x6000 (at8000 []) = drawByte (at8000 []) ∧
      busRead 0x7FFF (at8000 []) = drawByte (at8000 []) ∧ busRead 0x8000 (at8000 [5]) = (5, at8000 [5]) ∧
      busRead 0xFFFF (at8000 []) = (0, at8000 []) := by
  refine ⟨by decide, by decide, rfl, rfl, rfl, rfl, rfl, rfl, rfl, rfl, rfl, rfl, rfl, by decide, by decide, rfl, rfl, rfl, rfl⟩

/-- O6: both edges of every range. -/
theorem test_witness_bus_writes :
    (busWrite 0x1FFF 7 (at8000 [])).ram = [(0x7FF, 7)] ∧ (busWrite 0x2000 7 (at8000 [])).ppu.ctrl = 7 ∧
      (busWrite 0x3FFF 7 (at8000 [])).ppu.v = 1 ∧ busWrite 0x4000 7 (at8000 []) = apuEnqueue 0x4000 7 (at8000 []) ∧
      busWrite 0x4013 7 (at8000 []) = apuEnqueue 0x4013 7 (at8000 []) ∧
      busWrite 0x4014 7 (at8000 []) = oamDma 7 (at8000 []) ∧
      busWrite 0x4015 7 (at8000 []) = apuEnqueue 0x4015 7 (at8000 []) ∧
      (busWrite 0x4016 7 (at8000 [])).pads.strobe = true ∧
      busWrite 0x4017 7 (at8000 []) = apuEnqueue 0x4017 7 (at8000 []) ∧ busWrite 0x4018 7 (at8000 []) = at8000 [] ∧
      busWrite 0x5FFF 7 (at8000 []) = at8000 [] ∧ (busWrite 0x6000 7 withSram).sram = [(0, 7), (0x1FFF, 0x22)] ∧
      (busWrite 0x7FFF 7 withSram).sram = [(0, 0x11), (0x1FFF, 7)] ∧ busWrite 0x6000 7 (at8000 []) = at8000 [] ∧
      busWrite 0x7FFF 7 (at8000 []) = at8000 [] ∧
      (busWrite 0x8000 7 (onMapper 4 0 (.prgBankSelect 0))).mapper.regs = .prgBankSelect 3 ∧
      (busWrite 0xFFFF 7 (onMapper 4 0 (.prgBankSelect 0))).mapper.regs = .prgBankSelect 3 := by
  refine ⟨by decide, rfl, rfl, rfl, rfl, rfl, rfl, rfl, rfl, rfl, rfl, by decide, by decide, rfl, rfl, by decide, by decide⟩

/-- O7. -/
theorem test_witness_peek :
    peek 0x1FFF (at8000 []) = some 0 ∧ peek 0x5FFF (at8000 []) = some 0 ∧ peek 0x7FFF withSram = some 0x22 ∧
      peek 0xFFFF (at8000 []) = some 0 ∧ peek 0x2000 (at8000 []) = none ∧ peek 0x7FFF (at8000 []) = none := by decide

/-- O8. -/
theorem test_witness_mirrors :
    0x7FF < 0x800 ∧ 3 < 4 ∧ (busRead (BitVec.ofNat 16 (0x7FF + 0x800 * 0))
        (busWrite (BitVec.ofNat 16 (0x7FF + 0x800 * 3)) 9 (at8000 []))).1 = 9 ∧
      (0x2000 : Addr) ≤ 0x3FFF ∧ (0x3FFF : Addr) ≤ 0x3FFF := by decide

/-- O9. -/
theorem test_witness_stored_bytes :
    (0x1FFF#16).toNat < 0x2000 ∧ ¬ Spec.sameByte 0x1FFF 0x1FFE ∧ Spec.sameByte 0x1FFF 0x07FF ∧
      (0x6000 ≤ (0x7FFF#16).toNat ∧ (0x7FFF#16).toNat < 0x8000 ∧ withSram.cart.hasSram = true) := by
  unfold Spec.sameByte; decide

/-- O10, O13 to O17: every form's bytes can be at PC; the widest operands. -/
theorem test_witness_reading_forms_run :
    Spec.aboutToRun (Spec.loadRow 0xA0 (.absX 0xFFFF)).1 (at8000 [0xBD, 0xFF, 0xFF]) ∧
      Spec.aboutToRun (Spec.ldxRow (.zpY 0xFF)).1 (at8000 [0xB6, 0xFF]) ∧
      Spec.aboutToRun (Spec.ldyRow (.imm 0x00)).1 (at8000 [0xA0, 0x00]) ∧
      Spec.aboutToRun (Spec.loadRow 0x60 (.indY 0xFF)).1 (at8000 [0x71, 0xFF]) ∧
      Spec.aboutToRun (Spec.loadRow 0xE0 (.indX 0xFF)).1 (at8000 [0xE1, 0xFF]) ∧
      Spec.aboutToRun (Spec.loadRow 0x20 (.zp 0xFF)).1 (at8000 [0x25, 0xFF]) ∧
      Spec.aboutToRun (Spec.loadRow 0x00 (.abs 0xFFFF)).1 (at8000 [0x0D, 0xFF, 0xFF]) ∧
      Spec.aboutToRun (Spec.loadRow 0x40 (.absY 0xFFFF)).1 (at8000 [0x59, 0xFF, 0xFF]) ∧
      Spec.aboutToRun (Spec.loadRow 0xC0 (.zpX 0xFF)).1 (at8000 [0xD5, 0xFF]) ∧
      Spec.aboutToRun (Spec.cpRow 0xE0 (.abs 0xFFFF)).1 (at8000 [0xEC, 0xFF, 0xFF]) ∧
      Spec.aboutToRun (Spec.cpRow 0xC0 (.imm 0xFF)).1 (at8000 [0xC0, 0xFF]) ∧
      Spec.aboutToRun (Spec.bitRow (.abs 0xFFFF)).1 (at8000 [0x2C, 0xFF, 0xFF]) := by
  refine ⟨?_, ?_, ?_, ?_, ?_, ?_, ?_, ?_, ?_, ?_, ?_, ?_⟩ <;> exact about_to_run _ (by decide)

/-- O11, O18, O20. -/
theorem test_witness_writing_forms_run :
    Spec.aboutToRun (Spec.staRow (.indY 0xFF)).1 (at8000 [0x91, 0xFF]) ∧
      Spec.aboutToRun (Spec.stxRow (.abs 0xFFFF)).1 (at8000 [0x8E, 0xFF, 0xFF]) ∧
      Spec.aboutToRun (Spec.styRow (.zpX 0xFF)).1 (at8000 [0x94, 0xFF]) ∧
      Spec.aboutToRun (Spec.incRow 0xE0 (.absX 0xFFFF)).1 (at8000 [0xFE, 0xFF, 0xFF]) ∧
      Spec.aboutToRun (Spec.incRow 0xC0 (.zp 0x00)).1 (at8000 [0xC6, 0x00]) ∧
      Spec.aboutToRun (Spec.shiftRow 0x00 .acc).1 (at8000 [0x0A]) ∧
      Spec.aboutToRun (Spec.shiftRow 0x40 (.zpX 0xFF)).1 (at8000 [0x56, 0xFF]) ∧
      Spec.aboutToRun (Spec.shiftRow 0x20 (.abs 0xFFFF)).1 (at8000 [0x2E, 0xFF, 0xFF]) ∧
      Spec.aboutToRun (Spec.shiftRow 0x60 (.absX 0xFFFF)).1 (at8000 [0x7E, 0xFF, 0xFF]) := by
  refine ⟨?_, ?_, ?_, ?_, ?_, ?_, ?_, ?_, ?_⟩ <;> exact about_to_run _ (by decide)

/-- O12, O19, O24, O25, O26: the one-byte opcodes, and BRK. -/
theorem test_witness_implied_forms_run :
    (∀ op : Byte, Spec.aboutToRun [op] (at8000 [op])) ∧ Spec.aboutToRun (Spec.two 0x00 0xFF) (at8000 [0x00, 0xFF]) :=
  ⟨fun _ => about_to_run _ (by simp), about_to_run _ (by decide)⟩

/-- O21, O22, O23. -/
theorem test_witness_control_forms_run :
    (∀ k < 8, Spec.aboutToRun (Spec.two (0x10 + 0x20 * k) 0x80) (at8000 (Spec.two (0x10 + 0x20 * k) 0x80))) ∧
      Spec.aboutToRun (Spec.three 0x4C 0xFFFF) (at8000 [0x4C, 0xFF, 0xFF]) ∧
      Spec.aboutToRun (Spec.three 0x6C 0x10FF) (at8000 [0x6C, 0xFF, 0x10]) ∧
      Spec.aboutToRun (Spec.three 0x20 0x9000) (at8000 [0x20, 0x00, 0x90]) :=
  ⟨fun _ _ => about_to_run _ (by simp [Spec.two]), about_to_run _ (by decide), about_to_run _ (by decide), about_to_run _ (by decide)⟩

/-- O28: each request, masked and not, under both policies. -/
theorem test_witness_service :
    (at8000 []).pending = none ∧ (request .nmi (at8000 [])).pending = some .nmi ∧
      (request .reset (at8000 [])).pending = some .reset ∧
      ((request .irq (at8000 [])).pending, (request .irq (at8000 [])).flags.i) = (some .irq, false) ∧
      ((request .irq State.reset).pending, State.reset.flags.i, State.reset.params.maskedIrq) = (some .irq, true, .retain) ∧
      ({ State.reset with params := { resetParams with maskedIrq := .drop } } : State).params.maskedIrq = .drop := by
  decide

/-- O29, O34, O32, O37 to O40: steps and instructions that answer. -/
theorem test_witness_iteration :
    ∃ t, (at8000 [0xE8]).frame.phase = .running ∧ 0 < (at8000 [0xE8]).remaining ∧ step (at8000 [0xE8]) = .next t ∧
      t.x = 1 := ⟨_, rfl, by decide, rfl, rfl⟩

theorem test_witness_exec :
    (∃ t, exec (.sta (.abs 0x1FFF)) (at8000 []) = .next t) ∧ (∃ t, exec (.brk 0) (at8000 []) = .next t) ∧
      (∃ t, exec (.sta (.abs 0x8000)) (onMapper 4 0 (.prgBankSelect 0)) = .next t) ∧
      (∃ t, exec (.ill 2) (at8000 []) = .next t) := ⟨⟨_, rfl⟩, ⟨_, rfl⟩, ⟨_, rfl⟩, ⟨_, rfl⟩⟩

/-- O32: bytes at PC with nothing pending, and at the NMI vector with an NMI pending. -/
theorem test_witness_step_decodes :
    let s := at8000 [0x4C, 0xFF, 0xFF]
    let n := { at8000 [0xEA] with pending := some .nmi, cart := { Cartridge.blank with prg := [(0, 0xEA), (0x3FFB, 0x80)] } }
    Spec.bytesAt (service { s with cost := 0 }).pc [0x4C, 0xFF, 0xFF] (service { s with cost := 0 }) ∧
      decode [0x4C, 0xFF, 0xFF] = .ok (.jmp (.abs 0xFFFF), []) ∧
      Spec.bytesAt (service { n with cost := 0 }).pc [0xEA] (service { n with cost := 0 }) ∧
      decode [0xEA] = .ok (.nop, []) ∧ n.frame.phase = .running ∧ 0 < n.remaining ∧ s.pending = none := by
  refine ⟨(about_to_run _ (by decide)).2.2.2, rfl, ?_, rfl, rfl, by decide, rfl⟩
  unfold Spec.bytesAt; decide

/-- O34's other cases: no cycles left, a line's start, the ended run. -/
theorem test_witness_driver_steps :
    (∃ t, step { at8000 [] with remaining := 0 } = .next t) ∧ (∃ t, step State.reset = .next t) ∧
      (∃ t, step { at8000 [] with frame := { Frame.reset with phase := .ended } } = .next t) ∧
      ¬ (0 < ({ at8000 [] with remaining := 0 } : State).remaining) ∧ State.reset.frame.phase ≠ .running :=
  ⟨⟨_, rfl⟩, ⟨_, rfl⟩, ⟨_, rfl⟩, by decide, by decide⟩

/-- O35: a line's end at every line, the edges 0, 239, 240 and 261 among them. -/
theorem test_witness_line_end (n : Nat) (h : n ≤ 261) :
    ∃ s t u : State, s.frame.phase = .running ∧ s.remaining ≤ 0 ∧ s.frame.line ≤ 261 ∧ s.frame.line = n ∧
      u = hostActs .afterRun s ∧ step s = .next t :=
  ⟨{ at8000 [] with remaining := 0, frame := { Frame.reset with line := n, phase := .running } }, _, _, rfl,
    Int.le_refl 0, h, rfl, rfl, rfl⟩

/-- O36: a line's start at every line. -/
theorem test_witness_line_start (n : Nat) :
    ∃ s t : State, s.frame.phase = .lineStart ∧ s.frame.line = n ∧ step s = .next t :=
  ⟨{ at8000 [] with frame := { Frame.reset with line := n } }, _, rfl, rfl, rfl⟩

/-- O31: 16-byte headers, each way an image fails, and each mapper number that loads, with and without CHR pages. -/
theorem test_witness_images :
    (headed 0 0 0 0).header.length = 16 ∧
      (Image.header { headed 1 0 0 0 with header := List.replicate 16 0 }).length = 16 ∧
      (Image.header { headed 1 0 0 0 with header := List.replicate 16 0 }).take 4 ≠ [0x4E, 0x45, 0x53, 0x1A] ∧
      (headed 1 0 0 0).header.take 4 = [0x4E, 0x45, 0x53, 0x1A] ∧
      (headed 0 0 0 0).byte 4 = 0 ∧ (headed 1 0 0 0).byte 4 = 1 ∧ (headed 255 0 0 0).byte 4 = 255 ∧
      (headed 1 0 0 0).byte 5 = 0 ∧ (headed 1 1 0 0).byte 5 = 1 ∧
      [0x00, 0x10, 0x20, 0x30].map (fun b6 => (headed 1 0 b6 0).mapperNumber) = [0, 1, 2, 3] ∧
      3 < (headed 1 0 0x40 0).mapperNumber ∧ (headed 1 0 0xF0 0xF0).mapperNumber = 255 := by decide

/-- O37: a store in RAM, an address it misses and one it does not; a mapper store. -/
theorem test_witness_stored_addresses :
    Spec.storesTo (.sta (.absX 0x1FFE)) { at8000 [] with x := 1 } = [0x1FFF] ∧
      (∀ a ∈ Spec.storesTo (.sta (.abs 0x1FFF)) (at8000 []), ¬ Spec.sameByte a 0x07FE) ∧
      Spec.storesTo (.brk 0) { at8000 [] with sp := 0x01 } = [0x101, 0x100, 0x1FF] ∧
      Spec.storesTo (.sta (.abs 0x8000)) (at8000 []) = [0x8000] ∧ Spec.storesTo .nop (at8000 []) = [] := by
  unfold Spec.sameByte; decide

/-- O38, O40: instructions outside each list of writers, and inside. -/
theorem test_witness_writers :
    [Spec.writesA .txs, Spec.writesX .tay, Spec.writesY .tax, Spec.writesS .tsx, Spec.writesC .inx, Spec.writesNZ .txs,
        Spec.writesI .php, Spec.writesD (.brk 0), Spec.writesV (.cmp (.imm 0)), Spec.writesB .php] =
      List.replicate 10 false ∧
    Spec.writesD (.adc (.imm 1)) = false ∧ Instr.adc (.imm 1) ≠ .php ∧ ∀ p, Instr.adc (.imm 1) ≠ .brk p := by
  refine ⟨by decide, by decide, by decide, fun _ h => by cases h⟩

/-- O39: CHR ROM present. -/
theorem test_witness_chr_rom : (onMapper 1 1 .fixedBank).cart.chrPages ≠ 0 := by decide

/-- O41. -/
theorem test_witness_same_but_b :
    let s := at8000 [0x08]
    sameButB s { s with flags := { s.flags with b := true } } ∧ ∃ s', step s = .next s' := ⟨rfl, _, rfl⟩

/-- O42: the reset state, and a state inside a `run` call. -/
theorem test_witness_invariant :
    State.reset.Inv ∧ (∃ t, step State.reset = .next t) ∧ (at8000 [0xA9, 0x80]).Inv ∧
      ∃ t, step (at8000 [0xA9, 0x80]) = .next t :=
  ⟨⟨⟨by decide, by decide, by decide, ⟨by decide, by decide, by decide, trivial⟩, rfl⟩, by decide, by decide⟩, ⟨_, rfl⟩,
    ⟨⟨by decide, by decide, by decide, ⟨by decide, by decide, by decide, trivial⟩, rfl⟩, by decide, by decide⟩, ⟨_, rfl⟩⟩

/-- O45: the last buffered address, and the first palette one; the ports that read as a free value. -/
theorem test_witness_data_port :
    (0 ∈ [0, 1, 3, 5, 6] ∧ 6 ∈ [0, 1, 3, 5, 6]) ∧ (at8000 []).ppu.w = false ∧ (0x3F#8).toNat % 64 * 256 + (0x00#8).toNat = 0x3F00 ∧
      (0x3E#8).toNat % 64 * 256 + (0xFF#8).toNat = 0x3EFF ∧ (0x3EFF < 0x3F00) := by decide

/-- O46. -/
theorem test_witness_toggle : (at8000 []).ppu.w = false ∧ ({ Ppu.reset with w := true } : Ppu).w = true := by decide

/-- O47, O48: the last byte of the last table; both ends of the palette range. -/
theorem test_witness_nametables_and_palette :
    (3 < 4 ∧ 1023 < 1024) ∧ Spec.aliased .vertical 1 3 = true ∧ Spec.aliased .horizontal 1 2 = false ∧
      0x3F00 ≤ (0x3F00#14).toNat ∧ 0x3F00 ≤ (0x3FFF#14).toNat ∧
      (Spec.paletteEntry 0x3F10, Spec.paletteEntry 0x3FFF) = (0, 31) := by decide

/-- O50: a page of RAM and the last page of PRG. -/
theorem test_witness_dma_pages :
    (∀ i, i < 256 → peek (BitVec.ofNat 16 (256 * (0x02#8).toNat + i)) (at8000 []) = some 0) ∧
      ∀ i, i < 256 → peek (BitVec.ofNat 16 (256 * (0xFF#8).toNat + i)) (at8000 []) = some 0 := by
  constructor <;> decide +kernel

/-- O51, O52: the first, the last clipped and the last column; a line no sprite has claimed. -/
theorem test_witness_columns :
    (0 < 256 ∧ 7 < 8 ∧ 255 < 256) ∧
      (List.replicate 256 ({ colour := 1, bgOpaque := true, sprOcc := false } : Pixel))[255]? =
        some { colour := 1, bgOpaque := true, sprOcc := false } ∧
      Spec.firstSprite 10 5 (at8000 []) = none := by
  refine ⟨by decide, ?_, ?_⟩ <;> decide +kernel

/-- O52: two sprites over one column; the first in OAM order is found. -/
theorem test_witness_first_sprite :
    Spec.firstSprite 10 255 { at8000 [] with
      cart := { Cartridge.blank with chr := [(0x20, 0xFF)] }
      ppu := { Ppu.reset with
        oam := [(0, 200), (4, 9), (5, 2), (6, 0x20), (7, 250), (8, 9), (9, 2), (11, 255)] } } = some 1 := by
  decide +kernel

/-- O53: the strobe held. -/
theorem test_witness_strobe : ({ at8000 [] with pads := { Pads.reset with strobe := true } } : State).pads.strobe = true :=
  rfl

/-- R1325: a write on a partly filled shift register puts its bit at the count's place; the fifth goes to its register. -/
theorem test_serial_write :
    let r : Mmc1 := { Mmc1.powerOn with shift := 2, count := 3 }
    (busWrite 0xA000 0x7F (onMapper 8 0 (.shiftReg r))).mapper.regs = .shiftReg { r with shift := 10, count := 4 } ∧
      (busWrite 0xA000 0x01 (onMapper 8 0 (.shiftReg { r with count := 4 }))).mapper.regs =
        .shiftReg { Mmc1.powerOn with chr0 := 18 } := by decide

/-- O53, O54: the last button; the ports that queue a write, at the edges of their range. O55, O56: the last
register of a pulse channel; the shortest block. -/
theorem test_witness_ports :
    7 < 8 ∧ 3 < 4 ∧ 0 < 1 ∧ (0x4000 ≤ (0x4000#16).toNat ∧ (0x4000#16).toNat ≤ 0x4013) ∧ (0x4000 ≤ (0x4013#16).toNat ∧
      (0x4013#16).toNat ≤ 0x4013) := by
  decide

/-- O57: a moving and a muted sweep, a running and a restarting envelope, a DMC with bits left. -/
theorem test_witness_audio_units :
    (Noise.reset.lfsr ≠ 0) ∧ ({ Dmc.reset with bitsLeft := 8 } : Dmc).bitsLeft ≠ 0 ∧
      ({ start := true, divider := 0, decay := 0 } : Envelope).start = true ∧
      (Envelope.reset.start = false ∧ Envelope.reset.divider = 0) ∧ Pulse.reset.muted = true ∧
      (let p := { Pulse.reset with period := 0x100, swEnable := true, swShift := 1 }
       p.muted = false ∧ p.swDivider = 0 ∧ p.swEnable = true ∧ p.swShift ≠ 0) := by decide

/-- O58: each variant with derived windows, and the edges of the register range. -/
theorem test_witness_bank_selects :
    ((onMapper 1 0 .fixedBank).windowsDerived ∧ 0 < (onMapper 1 0 .fixedBank).cart.prgPages) ∧
      ((onMapper 8 0 (.prgBankSelect 7)).windowsDerived ∧
      (onMapper 8 0 (.prgBankSelect 7)).mapper.regs = .prgBankSelect 7) ∧
      ((onMapper 2 4 (.chrBankSelect 3)).windowsDerived ∧
      (onMapper 2 4 (.chrBankSelect 3)).mapper.regs = .chrBankSelect 3) ∧
      0x8000 ≤ (0x8000#16).toNat ∧ (0xBFFF#16).toNat < 0xC000 ∧ 0xC000 ≤ (0xC000#16).toNat ∧
      0x8000 ≤ (0xFFFF#16).toNat := by
  decide

/-- O59: an empty shift register, and one with a bit or four in it; an address in each register's range; values with
bit 7 clear and set. -/
theorem test_witness_serial_writes :
    (let one : Mmc1 := { Mmc1.powerOn with shift := 1, count := 1 }
     let four : Mmc1 := { Mmc1.powerOn with shift := 9, count := 4 }
     (onMapper 8 0 (.shiftReg one)).mapper.regs = .shiftReg one ∧ one.count ≠ 4 ∧
       (onMapper 8 0 (.shiftReg four)).mapper.regs = .shiftReg four ∧ four.count = 4) ∧
    (onMapper 8 0 (.shiftReg Mmc1.powerOn)).mapper.regs = .shiftReg Mmc1.powerOn ∧ Mmc1.powerOn.shift = 0 ∧
      Mmc1.powerOn.count = 0 ∧ 128 ≤ (0x80#8).toNat ∧ (0x7F#8).toNat < 128 ∧ (0x9FFF#16).toNat < 0xA000 ∧
      (0xA000 ≤ (0xBFFF#16).toNat ∧ (0xBFFF#16).toNat < 0xC000) ∧ (0xC000 ≤ (0xDFFF#16).toNat ∧
      (0xDFFF#16).toNat < 0xE000) ∧
      0xE000 ≤ (0xE000#16).toNat := by decide

/-- O60: control values of every PRG and CHR mode. -/
theorem test_witness_shift_register_modes :
    let s (c : BitVec 5) := onMapper 8 2 (.shiftReg { Mmc1.powerOn with control := c, prg := 0xF, chr0 := 0x1F })
    ((s 0x0C).windowsDerived ∧ (0x0C#5).toNat / 4 % 4 = 3 ∧ (0x0C#5).toNat / 16 = 0) ∧
      ((s 0x18).windowsDerived ∧ (0x18#5).toNat / 4 % 4 = 2 ∧ (0x18#5).toNat / 16 = 1) ∧
      ((s 0x04).windowsDerived ∧ (0x04#5).toNat / 4 % 4 < 2) ∧ 0 < (s 0).cart.prgPages := by decide

end Sys2Proof.Tests
end

/-!
PROOFS of the family 10_state.md (O38, O40, O41, O43). The parts: what does not depend on the flags; what carries D
and B through (O40); two states that differ in the stored B alone (O41); which registers an instruction keeps (O38);
the reset state (O43).
-/

namespace Sys2Proof.Machine

/-! ## What does not depend on the flags

Each lemma moves new flags from a state to the result of an operation: the operation neither reads nor writes the
flags. -/

/-! ### Updates and choices -/

@[simp] theorem State.setA_setFlags (v : Byte) (f : Flags) (s : State) :
    (s.setFlags f).setA v = (s.setA v).setFlags f := rfl

@[simp] theorem State.setX_setFlags (v : Byte) (f : Flags) (s : State) :
    (s.setFlags f).setX v = (s.setX v).setFlags f := rfl

@[simp] theorem State.setY_setFlags (v : Byte) (f : Flags) (s : State) :
    (s.setFlags f).setY v = (s.setY v).setFlags f := rfl

@[simp] theorem State.setPc_setFlags (w : Addr) (f : Flags) (s : State) :
    (s.setFlags f).setPc w = (s.setPc w).setFlags f := rfl

@[simp] theorem State.charge_setFlags (n : Nat) (f : Flags) (s : State) :
    (s.setFlags f).charge n = (s.charge n).setFlags f := rfl

@[simp] theorem State.setApu_setFlags (u : Apu) (f : Flags) (s : State) :
    (s.setFlags f).setApu u = (s.setApu u).setFlags f := rfl

@[simp] theorem State.setPpu_setFlags (p : Ppu) (f : Flags) (s : State) :
    (s.setFlags f).setPpu p = (s.setPpu p).setFlags f := rfl

@[simp] theorem State.setFrame_setFlags (g : Frame) (f : Flags) (s : State) :
    (s.setFlags f).setFrame g = (s.setFrame g).setFlags f := rfl

@[simp] theorem request_setFlags (k : Interrupt) (f : Flags) (s : State) :
    request k (s.setFlags f) = (request k s).setFlags f := rfl

@[simp] theorem ite_setFlags (c : Prop) [Decidable c] (f : Flags) (s t : State) :
    (if c then s.setFlags f else t.setFlags f) = (if c then s else t).setFlags f := by split <;> rfl

/-! ### The bus -/

@[simp] theorem busRead_setFlags (a : Addr) (f : Flags) (s : State) :
    busRead a (s.setFlags f) = ((busRead a s).1, (busRead a s).2.setFlags f) := by
  unfold busRead ppuPortRead ioRead
  rw [State.setFlags_cart]
  split_ifs <;> rfl

@[simp] theorem ppuWrite_setFlags (a : BitVec 14) (v : Byte) (f : Flags) (s : State) :
    ppuWrite a v (s.setFlags f) = (ppuWrite a v s).setFlags f := by
  unfold ppuWrite chrWrite
  rw [State.setFlags_cart]
  split_ifs <;> rfl

@[simp] theorem dataWrite_setFlags (d : Byte) (f : Flags) (s : State) :
    dataWrite d (s.setFlags f) = (dataWrite d s).setFlags f := by
  unfold dataWrite
  rw [State.setFlags_ppu, ppuWrite_setFlags]
  rfl

@[simp] theorem ppuPortWrite_setFlags (p : Nat) (d : Byte) (f : Flags) (s : State) :
    ppuPortWrite p d (s.setFlags f) = (ppuPortWrite p d s).setFlags f := by
  unfold ppuPortWrite
  rw [dataWrite_setFlags]
  split_ifs <;> rfl

@[simp] theorem mmc1Write_setFlags (a : Addr) (d : Byte) (r : Mmc1) (f : Flags) (s : State) :
    mmc1Write a d r (s.setFlags f) = (mmc1Write a d r s).setFlags f := by
  unfold mmc1Write mmc1Dispatch
  dsimp only
  split_ifs <;> rfl

@[simp] theorem mapperWrite_setFlags (a : Addr) (d : Byte) (f : Flags) (s : State) :
    mapperWrite a d (s.setFlags f) = (mapperWrite a d s).setFlags f := by
  unfold mapperWrite
  rw [State.setFlags_mapper]
  split_ifs
  · rfl
  · cases s.mapper.regs with
    | fixedBank => rfl
    | chrBankSelect _ => rfl
    | prgBankSelect _ => rfl
    | shiftReg r => exact mmc1Write_setFlags a d r f s

theorem oamDmaByte_setFlags (d : Byte) (f : Flags) (s : State) (i : Nat) :
    oamDmaByte d (s.setFlags f) i = (oamDmaByte d s i).setFlags f := by
  unfold oamDmaByte; rw [busRead_setFlags]; rfl

theorem oamDmaLoop_setFlags (d : Byte) (l : List Nat) (f : Flags) (s : State) :
    l.foldl (oamDmaByte d) (s.setFlags f) = (l.foldl (oamDmaByte d) s).setFlags f := by
  induction l generalizing s with
  | nil => rfl
  | cons i l ih => rw [List.foldl_cons, oamDmaByte_setFlags, ih, List.foldl_cons]

@[simp] theorem oamDma_setFlags (d : Byte) (f : Flags) (s : State) :
    oamDma d (s.setFlags f) = (oamDma d s).setFlags f := by
  unfold oamDma; rw [oamDmaLoop_setFlags]; rfl

@[simp] theorem busWrite_setFlags (a : Addr) (v : Byte) (f : Flags) (s : State) :
    busWrite a v (s.setFlags f) = (busWrite a v s).setFlags f := by
  unfold busWrite ioWrite
  rw [ppuPortWrite_setFlags, mapperWrite_setFlags, oamDma_setFlags, State.setFlags_cart]
  split_ifs <;> rfl

/-! ### Fetching and operands -/

@[simp] theorem fetch8_setFlags (f : Flags) (s : State) :
    fetch8 (s.setFlags f) = ((fetch8 s).1, (fetch8 s).2.setFlags f) := by simp [fetch8]

@[simp] theorem fetchInstr_setFlags (f : Flags) (s : State) :
    fetchInstr (s.setFlags f) = ((fetchInstr s).1, (fetchInstr s).2.setFlags f) := by
  simp only [fetchInstr, fetch8_setFlags]
  split_ifs <;> rfl

@[simp] theorem baseAddr_setFlags (m : Mode) (f : Flags) (s : State) : baseAddr m (s.setFlags f) = baseAddr m s := by
  cases m <;> simp [baseAddr, zpPointer]

@[simp] theorem effAddr_setFlags (m : Mode) (f : Flags) (s : State) : effAddr m (s.setFlags f) = effAddr m s := by
  cases m <;> simp [effAddr]

@[simp] theorem crossPenalty_setFlags (m : Mode) (f : Flags) (s : State) :
    crossPenalty m (s.setFlags f) = crossPenalty m s := by
  unfold crossPenalty crossed
  rw [baseAddr_setFlags, effAddr_setFlags, State.setFlags_params]

@[simp] theorem readOperand_setFlags (o : ReadOperand) (f : Flags) (s : State) :
    readOperand o (s.setFlags f) = ((readOperand o s).1, (readOperand o s).2.setFlags f) := by
  cases o with
  | imm b => rfl
  | mem m => simp [readOperand]

/-! ### Sound -/

@[simp] theorem dmcFetch_setFlags (f : Flags) (s : State) : dmcFetch (s.setFlags f) = (dmcFetch s).setFlags f := by
  unfold dmcFetch
  dsimp only
  rw [State.setFlags_apu, busRead_setFlags]
  dsimp only
  split_ifs <;> rfl

@[simp] theorem dmcBit_setFlags (f : Flags) (s : State) : dmcBit (s.setFlags f) = (dmcBit s).setFlags f := by
  simp [dmcBit]

@[simp] theorem dmcTick_setFlags (f : Flags) (s : State) : dmcTick (s.setFlags f) = (dmcTick s).setFlags f := by
  simp [dmcTick]

@[simp] theorem apuCycles_setFlags (n c : Nat) (f : Flags) (s : State) :
    apuCycles n c (s.setFlags f) = (apuCycles n c s).setFlags f := by
  induction n generalizing c s with
  | zero => rfl
  | succ n ih => simp [apuCycles, apuCycle, ih]

@[simp] theorem synthSample_setFlags (f : Flags) (s : State) :
    synthSample (s.setFlags f) = (synthSample s).setFlags f := by simp [synthSample]

@[simp] theorem synthSamples_setFlags (n : Nat) (f : Flags) (s : State) :
    synthSamples n (s.setFlags f) = ((synthSamples n s).1, (synthSamples n s).2.setFlags f) := by
  induction n generalizing s with
  | zero => rfl
  | succ n ih => simp [synthSamples, ih]

@[simp] theorem createSound_setFlags (n : Nat) (f : Flags) (s : State) :
    createSound n (s.setFlags f) = (createSound n s).setFlags f := by simp [createSound]

/-! ### The picture -/

theorem bgStep_setFlags (line : Line) (k : Nat) (f : Flags) (s : State) :
    bgStep (line, s.setFlags f) k = ((bgStep (line, s) k).1, (bgStep (line, s) k).2.setFlags f) := by
  have tile : bgTile (s.setFlags f) = bgTile s := rfl
  have pixel (t : Row8 × Nat) : bgPixel k t (s.setFlags f) = bgPixel k t s := rfl
  unfold bgStep
  dsimp only
  rw [tile, pixel]
  rfl

@[simp] theorem renderBackground_setFlags (line : Line) (f : Flags) (s : State) :
    renderBackground line (s.setFlags f) = ((renderBackground line s).1, (renderBackground line s).2.setFlags f) := by
  unfold renderBackground
  generalize List.range 33 = l
  induction l generalizing line s with
  | nil => rfl
  | cons k l ih => rw [List.foldl_cons, bgStep_setFlags, ih]; rfl

@[simp] theorem renderLine_setFlags (n : Nat) (f : Flags) (s : State) :
    renderLine n (s.setFlags f) = (renderLine n s).setFlags f := by
  unfold renderLine
  simp only [State.setFlags_ppu, renderBackground_setFlags]
  cases s.ppu.mask.getLsbD 3 <;> rfl

@[simp] theorem spriteEvaluation_setFlags (n : Nat) (f : Flags) (s : State) :
    spriteEvaluation n (s.setFlags f) = (spriteEvaluation n s).setFlags f := by
  have zero : spriteZeroOpaque n (s.setFlags f) = spriteZeroOpaque n s := rfl
  unfold spriteEvaluation
  rw [State.setFlags_ppu, zero]
  split_ifs <;> rfl

/-! ### The frame driver

Its actions are chains of conditional updates, so they are put together from blind pieces. -/

/-- `F` neither reads nor writes the flags. -/
def FlagBlind (F : State → State) : Prop := ∀ (f : Flags) (s : State), F (s.setFlags f) = (F s).setFlags f

theorem FlagBlind.flags {F : State → State} (h : FlagBlind F) (s : State) : (F s).flags = s.flags := by
  have hs : F s = (F s).setFlags s.flags := h s.flags s
  rw [hs]; rfl

theorem FlagBlind.id : FlagBlind fun s => s := fun _ _ => rfl

theorem FlagBlind.onPpu (g : Ppu → Ppu) : FlagBlind fun s => s.setPpu (g s.ppu) := fun _ _ => rfl

theorem FlagBlind.andThen {F G : State → State} (hF : FlagBlind F) (hG : FlagBlind G) : FlagBlind fun s => G (F s) :=
  fun f s => by dsimp only; rw [hF, hG]

theorem FlagBlind.ite (c : State → Prop) [DecidablePred c] (hc : ∀ f s, c (State.setFlags f s) = c s)
    {F G : State → State} (hF : FlagBlind F) (hG : FlagBlind G) : FlagBlind fun s => if c s then F s else G s :=
  fun f s => by simp only [hc, hF f s, hG f s, ite_setFlags]

theorem takeSnapshot_flagBlind : FlagBlind takeSnapshot := fun _ _ => rfl

theorem visibleLine_flagBlind : FlagBlind visibleLine := by
  have copies := FlagBlind.ite (fun s => renderingEnabled s.ppu) (fun _ _ => rfl) (.onPpu copyX) .id
  have renders : FlagBlind fun s => spriteEvaluation s.frame.line (renderLine s.frame.line s) := fun f s => by simp
  exact (copies.andThen renders :)

theorem beforeLine_flagBlind : FlagBlind beforeLine := by
  have snapshot := FlagBlind.ite (fun s => s.frame.line = 0) (fun _ _ => rfl) takeSnapshot_flagBlind .id
  have picture := FlagBlind.ite (fun s => s.frame.line ≤ 239) (fun _ _ => rfl) visibleLine_flagBlind .id
  have clears := FlagBlind.ite (fun s => s.frame.line = 261) (fun _ _ => rfl)
    (.onPpu fun p => { p with vblank := false, sprite0hit := false }) .id
  exact ((snapshot.andThen picture).andThen clears :)

theorem startVblank_flagBlind : FlagBlind startVblank := by
  have sets := FlagBlind.onPpu fun p => { p with vblank := true }
  have requests := FlagBlind.ite (fun s => s.ppu.ctrl.getLsbD 7) (fun _ _ => rfl) (request_setFlags .nmi) .id
  exact (sets.andThen requests :)

theorem afterLine_flagBlind : FlagBlind afterLine := by
  have scrolls := FlagBlind.ite (fun s => s.frame.line ≤ 239 ∧ renderingEnabled s.ppu) (fun _ _ => rfl)
    (.onPpu fun p => { p with v := incY p.v }) .id
  have vblank := FlagBlind.ite (fun s => s.frame.line = 240) (fun _ _ => rfl) startVblank_flagBlind .id
  have copies := FlagBlind.ite (fun s => s.frame.line = 261 ∧ renderingEnabled s.ppu) (fun _ _ => rfl)
    (.onPpu copyAll) .id
  exact ((scrolls.andThen vblank).andThen copies :)

theorem endFrame_flagBlind : FlagBlind endFrame := fun f s => by simp [endFrame, frameEndIrq]

/-! ### Pushes, stores, branches -/

theorem push8_flagBlind (v : Byte) : FlagBlind (push8 v) := fun f s => by rw [push8_eq, push8_eq]; rfl

theorem push16_flagBlind (w : Addr) : FlagBlind (push16 w) := fun f s => by rw [push16_eq, push16_eq]; rfl

theorem writeOperand_flagBlind (m : Mode) (v : Byte) : FlagBlind (writeOperand m v) := fun f s => by
  simp [writeOperand]

theorem branchIf_flagBlind (c : Bool) (off : Byte) : FlagBlind (branchIf c off) := fun f s => by cases c <;> rfl

/-! ## What carries D and B through

`δ` and `β` say how D and B are changed, so that one lemma serves D (O40: `δ` constant) and B (O41: `β` constant). -/

/-- The flags with D and B changed by `δ` and `β`. -/
def Flags.mapDB (δ β : Bool → Bool) (f : Flags) : Flags := { f with d := δ f.d, b := β f.b }

/-- The state with D and B changed by `δ` and `β`. -/
def State.mapDB (δ β : Bool → Bool) (s : State) : State := s.setFlags (s.flags.mapDB δ β)

/-- The operation neither reads nor writes D and B. -/
def CarriesDB (F : State → State) : Prop := ∀ (δ β : Bool → Bool) (s : State), F (s.mapDB δ β) = (F s).mapDB δ β

/-- The computation of a byte and the new flags neither reads nor writes D and B. -/
def FlagsCarryDB (g : Flags → Byte × Flags) : Prop :=
  ∀ (δ β : Bool → Bool) (f : Flags), g (f.mapDB δ β) = ((g f).1, (g f).2.mapDB δ β)

theorem FlagBlind.carriesDB {F : State → State} (h : FlagBlind F) : CarriesDB F := fun δ β s => by
  unfold State.mapDB; rw [h, h.flags]

theorem setPending_carriesDB (p : Option Interrupt) : CarriesDB (State.setPending p) := fun _ _ _ => rfl

theorem charge_carriesDB (n : Nat) : CarriesDB (State.charge n) := fun _ _ _ => rfl

/-! ### Reads -/

theorem busRead_mapDB (a : Addr) (δ β : Bool → Bool) (s : State) :
    busRead a (s.mapDB δ β) = ((busRead a s).1, (busRead a s).2.mapDB δ β) := by
  unfold State.mapDB; rw [busRead_setFlags, busRead_flags]

theorem readOperand_mapDB (o : ReadOperand) (δ β : Bool → Bool) (s : State) :
    readOperand o (s.mapDB δ β) = ((readOperand o s).1, (readOperand o s).2.mapDB δ β) := by
  unfold State.mapDB; rw [readOperand_setFlags, (BusFrame.of_readOperand o s).flags]

theorem fetchInstr_mapDB (δ β : Bool → Bool) (s : State) :
    fetchInstr (s.mapDB δ β) = ((fetchInstr s).1, (fetchInstr s).2.mapDB δ β) := by
  have hf : (fetchInstr s).2.flags = s.flags := (BusFrame.of_fetchInstr s).flags
  unfold State.mapDB; rw [fetchInstr_setFlags, hf]

theorem pull8_mapDB (δ β : Bool → Bool) (s : State) :
    pull8 (s.mapDB δ β) = ((pull8 s).1, (pull8 s).2.mapDB δ β) := by rw [pull8_eq, pull8_eq]; rfl

theorem pull16_mapDB (δ β : Bool → Bool) (s : State) :
    pull16 (s.mapDB δ β) = ((pull16 s).1, (pull16 s).2.mapDB δ β) := by rw [pull16_eq, pull16_eq]; rfl

/-! ### The shapes of instructions -/

theorem loadInto_carriesDB {set : Byte → State → State} (hset : ∀ v, FlagBlind (set v)) (o : ReadOperand) :
    CarriesDB (loadInto set o) := fun δ β s => by
  unfold loadInto
  rw [readOperand_mapDB]
  dsimp only
  rw [(hset _).carriesDB]; rfl

theorem accumulate_carriesDB {g : Byte → Byte → Flags → Byte × Flags} (hg : ∀ a m, FlagsCarryDB (g a m))
    (o : ReadOperand) : CarriesDB (accumulate g o) := fun δ β s => by
  have h := hg (readOperand o s).2.a (readOperand o s).1 δ β (readOperand o s).2.flags
  unfold accumulate
  rw [readOperand_mapDB]
  dsimp only [State.mapDB, State.setFlags_a, State.setFlags_flags]
  rw [h]; rfl

theorem testWith_carriesDB {g : Byte → Byte → Flags → Flags} (hg : ∀ r m, FlagsCarryDB fun f => (m, g r m f))
    (r : Byte) (o : ReadOperand) : CarriesDB (testWith g r o) := fun δ β s => by
  have h := congrArg Prod.snd (hg r (readOperand o s).1 δ β (readOperand o s).2.flags)
  unfold testWith
  rw [readOperand_mapDB]
  dsimp only [State.mapDB, State.setFlags_flags] at h ⊢
  rw [h]; rfl

theorem modifyOperand_carriesDB {g : Byte → Flags → Byte × Flags} (hg : ∀ v, FlagsCarryDB (g v)) (o : RmwOperand) :
    CarriesDB (modifyOperand g o) := fun δ β s => by
  cases o with
  | acc =>
    have h := hg s.a δ β s.flags
    dsimp only [modifyOperand, State.mapDB, State.setFlags_a, State.setFlags_flags]
    rw [h]; rfl
  | mem m =>
    have ea : effAddr m (s.mapDB δ β) = effAddr m s := effAddr_setFlags m _ s
    have h := hg (busRead (effAddr m s) s).1 δ β (busRead (effAddr m s) s).2.flags
    dsimp only [modifyOperand]
    rw [ea, busRead_mapDB]
    dsimp only [State.mapDB, State.setFlags_flags]
    rw [h, busWrite_setFlags]; rfl

/-! ### The instructions that read or pull before they answer -/

theorem exec_pla (s : State) : exec .pla s = .next (transferInto State.setA (pull8 s).1 (pull8 s).2) := rfl

theorem exec_plp (s : State) : exec .plp s = .next ((pull8 s).2.setFlags (unpackP (pull8 s).1)) := rfl

theorem exec_rts (s : State) : exec .rts s = .next ((pull16 s).2.setPc ((pull16 s).1 + 1)) := rfl

theorem exec_jmpInd (ptr : Addr) (s : State) :
    exec (.jmp (.ind ptr)) s =
      .next ((busRead (pointerHigh ptr) (busRead ptr s).2).2.setPc
        (word16 (busRead (pointerHigh ptr) (busRead ptr s).2).1 (busRead ptr s).1)) := rfl

/-- An instruction that neither pushes P (PHP, BRK) nor writes D (SED, CLD, PLP, RTI) carries D and B through. -/
theorem exec_mapDB {i : Instr} {s t : State} (hphp : i ≠ .php) (hbrk : ∀ p, i ≠ .brk p)
    (hd : Spec.writesD i = false) (h : exec i s = .next t) (δ β : Bool → Bool) :
    exec i (s.mapDB δ β) = .next (t.mapDB δ β) := by
  cases i
  case php => exact absurd rfl hphp
  case brk p => exact absurd rfl (hbrk p)
  case sed | cld | plp | rti => cases hd
  case pla => rw [exec_pla] at h ⊢; cases h; rw [pull8_mapDB]; rfl
  case rts => rw [exec_rts] at h ⊢; cases h; rw [pull16_mapDB]; rfl
  case jmp o =>
    cases o with
    | abs a => cases h; rfl
    | ind ptr => rw [exec_jmpInd] at h ⊢; cases h; rw [busRead_mapDB, busRead_mapDB]; rfl
  all_goals cases h
  case lda => exact congrArg _ (loadInto_carriesDB State.setA_setFlags _ δ β s)
  case ldx => exact congrArg _ (loadInto_carriesDB State.setX_setFlags _ δ β s)
  case ldy => exact congrArg _ (loadInto_carriesDB State.setY_setFlags _ δ β s)
  case sta | stx | sty => exact congrArg _ ((writeOperand_flagBlind _ _).carriesDB δ β s)
  case adc | sbc | and | ora | eor => exact congrArg _ (accumulate_carriesDB (fun _ _ _ _ _ => rfl) _ δ β s)
  case cmp | cpx | cpy | bit => exact congrArg _ (testWith_carriesDB (fun _ _ _ _ _ => rfl) _ _ δ β s)
  case inc | dec | asl | lsr | rol | ror => exact congrArg _ (modifyOperand_carriesDB (fun _ _ _ _ => rfl) _ δ β s)
  case bpl | bmi | bvc | bvs | bcc | bcs | bne | beq => exact congrArg _ ((branchIf_flagBlind _ _).carriesDB δ β s)
  case jsr a => exact congrArg (fun u => Host.Outcome.next (State.setPc a u)) ((push16_flagBlind _).carriesDB δ β s)
  case pha => exact congrArg _ ((push8_flagBlind _).carriesDB δ β s)
  case tax | tay | txa | tya | tsx | txs | inx | iny | dex | dey => rfl
  case clc | sec | cli | sei | clv | nop | ill => rfl

/-- Settles O40: D is set and B left by `Flags.mapDB`. -/
theorem onlyPushesOfStatusReadDecimal : Obligations.OnlyPushesOfStatusReadDecimal :=
  fun _ _ _ d hphp hbrk hd h => exec_mapDB hphp hbrk hd h (fun _ => d) id

/-! ## Two states that differ in the stored B alone (R59) -/

theorem sameButB_iff {s t : State} : sameButB s t ↔ ∃ b, t = s.mapDB id fun _ => b := by
  constructor
  · exact fun h => ⟨t.flags.b, h⟩
  · rintro ⟨b, rfl⟩; rfl

theorem sameButB.refl (s : State) : sameButB s s := rfl

theorem CarriesDB.sameButB {F : State → State} (hF : CarriesDB F) {s t : State} (h : sameButB s t) :
    sameButB (F s) (F t) := by
  obtain ⟨b, rfl⟩ := sameButB_iff.1 h
  exact sameButB_iff.2 ⟨b, hF id _ s⟩

/-! ### What overwrites B -/

/-- Bit 4 of the pushed byte and the new B come from the entry, not from the stored B (R820). -/
theorem takeInterrupt_congr (k : Entry) {s t : State} (h : sameButB s t) : takeInterrupt k t = takeInterrupt k s := by
  obtain ⟨b, rfl⟩ := sameButB_iff.1 h
  rw [takeInterrupt_eq, takeInterrupt_eq]; rfl

theorem returnFromInterrupt_congr {s t : State} (h : sameButB s t) :
    returnFromInterrupt t = returnFromInterrupt s := by
  obtain ⟨b, rfl⟩ := sameButB_iff.1 h
  rw [returnFromInterrupt_eq, returnFromInterrupt_eq]; rfl

theorem resetSequence_congr {s t : State} (h : sameButB s t) : resetSequence t = resetSequence s := by
  obtain ⟨b, rfl⟩ := sameButB_iff.1 h
  rw [resetSequence_eq, resetSequence_eq]; rfl

/-! ### An iteration -/

theorem service_sameButB {s t : State} (h : sameButB s t) : sameButB (service s) (service t) := by
  have cleared := (setPending_carriesDB none).sameButB h
  have hpending : t.pending = s.pending := by rw [h]
  have hi : t.flags.i = s.flags.i := by rw [h]
  have hparams : t.params = s.params := by rw [h]
  unfold service
  rw [hpending, hi, hparams]
  cases s.pending with
  | none => exact h
  | some k =>
    cases k with
    | nmi => dsimp only; rw [takeInterrupt_congr .nmi cleared]; exact .refl _
    | reset => dsimp only [servicedReset]; rw [resetSequence_congr cleared]; exact .refl _
    | irq =>
      dsimp only
      rw [takeInterrupt_congr .irq cleared]
      split_ifs
      · cases s.params.maskedIrq with
        | retain => exact h
        | drop => exact cleared
      · exact .refl _

theorem beginIteration_sameButB {s t : State} (h : sameButB s t) :
    sameButB (beginIteration s) (beginIteration t) := by
  have uncharged : CarriesDB fun s => { s with cost := 0 } := fun _ _ _ => rfl
  exact service_sameButB (uncharged.sameButB h)

theorem fetchInstr_sameButB {s t : State} (h : sameButB s t) :
    (fetchInstr t).1 = (fetchInstr s).1 ∧ sameButB (fetchInstr s).2 (fetchInstr t).2 := by
  obtain ⟨b, rfl⟩ := sameButB_iff.1 h
  rw [fetchInstr_mapDB]
  exact ⟨rfl, sameButB_iff.2 ⟨b, rfl⟩⟩

/-- PHP pushes a 1 for bit 4, BRK, PLP and RTI overwrite B, CLD and SED write D only, and every other instruction
carries B through. -/
theorem exec_sameButB (i : Instr) {s s' t : State} (h : sameButB s t) (hs : exec i s = .next s') :
    ∃ t', exec i t = .next t' ∧ sameButB s' t' := by
  have carried (hphp : i ≠ .php) (hbrk : ∀ p, i ≠ .brk p) (hd : Spec.writesD i = false) :
      ∃ t', exec i t = .next t' ∧ sameButB s' t' := by
    obtain ⟨b, rfl⟩ := sameButB_iff.1 h
    exact ⟨_, exec_mapDB hphp hbrk hd hs id _, sameButB_iff.2 ⟨b, rfl⟩⟩
  cases i
  case php =>
    cases hs
    have packed : packP true t.flags = packP true s.flags := by rw [h]; rfl
    refine ⟨push8 (packP true s.flags) t, ?_, (push8_flagBlind _).carriesDB.sameButB h⟩
    rw [← packed]; rfl
  case brk => cases hs; exact ⟨_, congrArg Host.Outcome.next (takeInterrupt_congr .brk h), .refl _⟩
  case rti => cases hs; exact ⟨_, congrArg Host.Outcome.next (returnFromInterrupt_congr h), .refl _⟩
  case plp =>
    rw [exec_plp] at hs; cases hs
    obtain ⟨b, rfl⟩ := sameButB_iff.1 h
    refine ⟨_, ?_, .refl _⟩
    rw [exec_plp, pull8_mapDB]; rfl
  case cld | sed => cases hs; exact ⟨_, rfl, by rw [h]; rfl⟩
  all_goals exact carried nofun nofun rfl

theorem iteration_sameButB {s s' t : State} (h : sameButB s t) (hs : iteration s = .next s') :
    ∃ t', iteration t = .next t' ∧ sameButB s' t' := by
  obtain ⟨hi, hf⟩ := fetchInstr_sameButB (beginIteration_sameButB h)
  have charged := (charge_carriesDB (baseCycles (fetchInstr (beginIteration s)).1)).sameButB hf
  have settles : CarriesDB settle := fun _ _ _ => rfl
  unfold iteration at hs ⊢
  dsimp only at hs ⊢
  rw [hi]
  cases he : exec (fetchInstr (beginIteration s)).1
      ((fetchInstr (beginIteration s)).2.charge (baseCycles (fetchInstr (beginIteration s)).1)) with
  | next u =>
    obtain ⟨v, hv, huv⟩ := exec_sameButB _ charged he
    rw [he] at hs; cases hs
    rw [hv]
    exact ⟨_, rfl, settles.sameButB huv⟩
  | fault f => rw [he] at hs; cases hs
  | refused r => rw [he] at hs; cases hs

/-! ### The frame driver and the host -/

theorem hostEvent_sameButB (e : HostEvent) {s t : State} (h : sameButB s t) :
    sameButB (hostEvent s e) (hostEvent t e) := by
  cases e with
  | createSound n => exact (FlagBlind.carriesDB (createSound_setFlags n)).sameButB h
  | requestReset => exact (setPending_carriesDB _).sameButB h
  | reset => dsimp only [hostEvent, hostReset]; rw [resetSequence_congr h]; exact .refl _
  | stop =>
    have stops : CarriesDB fun s => s.setFrame { s.frame with stop := true } := fun _ _ _ => rfl
    exact stops.sameButB h

theorem hostEvents_sameButB (es : List HostEvent) {s t : State} (h : sameButB s t) :
    sameButB (es.foldl hostEvent s) (es.foldl hostEvent t) := by
  induction es generalizing s t with
  | nil => exact h
  | cons e es ih => exact ih (hostEvent_sameButB e h)

theorem hostActs_sameButB (p : HostPoint) {s t : State} (h : sameButB s t) :
    sameButB (hostActs p s) (hostActs p t) := by
  have hframe : t.frame = s.frame := by rw [h]
  unfold hostActs
  rw [hframe]
  exact hostEvents_sameButB _ h

theorem startLine_sameButB {s t : State} (h : sameButB s t) : sameButB (startLine s) (startLine t) := by
  have begins : CarriesDB beginRun := fun _ _ _ => rfl
  exact begins.sameButB (hostActs_sameButB _ (beforeLine_flagBlind.carriesDB.sameButB h))

theorem endLine_sameButB {s t : State} (h : sameButB s t) : sameButB (endLine s) (endLine t) := by
  have nextLine : FlagBlind fun s => s.setFrame { s.frame with line := s.frame.line + 1, phase := .lineStart } :=
    fun _ _ => rfl
  have ends := FlagBlind.ite (fun s => s.frame.line = 261) (fun _ _ => rfl) endFrame_flagBlind nextLine
  exact (afterLine_flagBlind.andThen ends).carriesDB.sameButB (hostActs_sameButB .afterRun h)

/-- Settles O41: by the phase of the frame driver; both states are in the same one, with the same cycles left. -/
theorem storedBreakFlagIsUnobservable : Obligations.StoredBreakFlagIsUnobservable := by
  intro s t s' h hs
  have hframe : t.frame = s.frame := by rw [h]
  have hremaining : t.remaining = s.remaining := by rw [h]
  cases hphase : s.frame.phase with
  | lineStart =>
    rw [step_lineStart hphase] at hs; cases hs
    exact ⟨_, step_lineStart (by rw [hframe, hphase]), startLine_sameButB h⟩
  | running =>
    have hphase' : t.frame.phase = .running := by rw [hframe, hphase]
    by_cases k : 0 < s.remaining
    · rw [step_running hphase k] at hs
      rw [step_running hphase' (by omega)]
      exact iteration_sameButB h hs
    · rw [step_exhausted hphase (by omega)] at hs; cases hs
      exact ⟨_, step_exhausted hphase' (by omega), endLine_sameButB h⟩
  | ended =>
    rw [step_ended hphase] at hs; cases hs
    exact ⟨_, step_ended (by rw [hframe, hphase]), h⟩

/-! ## Which registers an instruction keeps (R50, R51, R55-R60) -/

/-- `g` has every flag of `f` that `i` is not listed as writing. -/
def keepsFlags (i : Instr) (f g : Flags) : Prop :=
  (Spec.writesC i = false → g.c = f.c) ∧ (Spec.writesNZ i = false → g.z = f.z ∧ g.n = f.n) ∧
  (Spec.writesI i = false → g.i = f.i) ∧ (Spec.writesD i = false → g.d = f.d) ∧
  (Spec.writesV i = false → g.v = f.v) ∧ (Spec.writesB i = false → g.b = f.b)

/-- `t` has every CPU register and flag of `s` that `i` is not listed as writing. -/
def keepsUnlisted (i : Instr) (s t : State) : Prop :=
  (Spec.writesA i = false → t.a = s.a) ∧ (Spec.writesX i = false → t.x = s.x) ∧
  (Spec.writesY i = false → t.y = s.y) ∧ (Spec.writesS i = false → t.sp = s.sp) ∧ keepsFlags i s.flags t.flags

section
variable {i : Instr}

/-- Of a listed register nothing is asked. -/
theorem of_listed {b : Bool} {P : Prop} (h : b = true) (k : b = false) : P := by simp [h] at k

/-! ### Flag computations -/

theorem keepsFlags.refl (f : Flags) : keepsFlags i f f := by simp [keepsFlags]

theorem keepsFlags.trans {f g k : Flags} (h : keepsFlags i f g) (h' : keepsFlags i g k) : keepsFlags i f k := by
  obtain ⟨c, nz, i, d, v, b⟩ := h
  obtain ⟨c', nz', i', d', v', b'⟩ := h'
  exact ⟨fun u => (c' u).trans (c u), fun u => ⟨(nz' u).1.trans (nz u).1, (nz' u).2.trans (nz u).2⟩,
    fun u => (i' u).trans (i u), fun u => (d' u).trans (d u), fun u => (v' u).trans (v u),
    fun u => (b' u).trans (b u)⟩

theorem setNZ_keepsFlags (h : Spec.writesNZ i = true) (r : Byte) (f : Flags) : keepsFlags i f (setNZ r f) :=
  ⟨fun _ => rfl, of_listed h, fun _ => rfl, fun _ => rfl, fun _ => rfl, fun _ => rfl⟩

theorem setC_keepsFlags (h : Spec.writesC i = true) (c : Bool) (f : Flags) : keepsFlags i f { f with c := c } :=
  ⟨of_listed h, fun _ => ⟨rfl, rfl⟩, fun _ => rfl, fun _ => rfl, fun _ => rfl, fun _ => rfl⟩

theorem setI_keepsFlags (h : Spec.writesI i = true) (v : Bool) (f : Flags) : keepsFlags i f { f with i := v } :=
  ⟨fun _ => rfl, fun _ => ⟨rfl, rfl⟩, of_listed h, fun _ => rfl, fun _ => rfl, fun _ => rfl⟩

theorem setD_keepsFlags (h : Spec.writesD i = true) (v : Bool) (f : Flags) : keepsFlags i f { f with d := v } :=
  ⟨fun _ => rfl, fun _ => ⟨rfl, rfl⟩, fun _ => rfl, of_listed h, fun _ => rfl, fun _ => rfl⟩

theorem setV_keepsFlags (h : Spec.writesV i = true) (v : Bool) (f : Flags) : keepsFlags i f { f with v := v } :=
  ⟨fun _ => rfl, fun _ => ⟨rfl, rfl⟩, fun _ => rfl, fun _ => rfl, of_listed h, fun _ => rfl⟩

theorem adc_keepsFlags (hc : Spec.writesC i = true) (hnz : Spec.writesNZ i = true) (hv : Spec.writesV i = true)
    (a m : Byte) (f : Flags) : keepsFlags i f (adc a m f).2 :=
  ⟨of_listed hc, of_listed hnz, fun _ => rfl, fun _ => rfl, of_listed hv, fun _ => rfl⟩

theorem compare_keepsFlags (hc : Spec.writesC i = true) (hnz : Spec.writesNZ i = true) (r m : Byte) (f : Flags) :
    keepsFlags i f (compare r m f) :=
  ⟨of_listed hc, of_listed hnz, fun _ => rfl, fun _ => rfl, fun _ => rfl, fun _ => rfl⟩

theorem bitTest_keepsFlags (hnz : Spec.writesNZ i = true) (hv : Spec.writesV i = true) (a m : Byte) (f : Flags) :
    keepsFlags i f (bitTest a m f) :=
  ⟨fun _ => rfl, of_listed hnz, fun _ => rfl, fun _ => rfl, of_listed hv, fun _ => rfl⟩

/-! ### Register updates -/

theorem keepsUnlisted.refl (s : State) : keepsUnlisted i s s := by simp [keepsUnlisted, keepsFlags.refl]

theorem keepsUnlisted.trans {s t u : State} (h : keepsUnlisted i s t) (k : keepsUnlisted i t u) :
    keepsUnlisted i s u := by
  obtain ⟨a, x, y, sp, f⟩ := h
  obtain ⟨a', x', y', sp', f'⟩ := k
  exact ⟨fun w => (a' w).trans (a w), fun w => (x' w).trans (x w), fun w => (y' w).trans (y w),
    fun w => (sp' w).trans (sp w), f.trans f'⟩

theorem setA_keepsUnlisted (h : Spec.writesA i = true) (v : Byte) (s : State) : keepsUnlisted i s (s.setA v) :=
  ⟨of_listed h, fun _ => rfl, fun _ => rfl, fun _ => rfl, .refl _⟩

theorem setX_keepsUnlisted (h : Spec.writesX i = true) (v : Byte) (s : State) : keepsUnlisted i s (s.setX v) :=
  ⟨fun _ => rfl, of_listed h, fun _ => rfl, fun _ => rfl, .refl _⟩

theorem setY_keepsUnlisted (h : Spec.writesY i = true) (v : Byte) (s : State) : keepsUnlisted i s (s.setY v) :=
  ⟨fun _ => rfl, fun _ => rfl, of_listed h, fun _ => rfl, .refl _⟩

theorem setSp_keepsUnlisted (h : Spec.writesS i = true) (v : Byte) (s : State) : keepsUnlisted i s (s.setSp v) :=
  ⟨fun _ => rfl, fun _ => rfl, fun _ => rfl, of_listed h, .refl _⟩

theorem setPc_keepsUnlisted (w : Addr) (s : State) : keepsUnlisted i s (s.setPc w) :=
  ⟨fun _ => rfl, fun _ => rfl, fun _ => rfl, fun _ => rfl, .refl _⟩

theorem setFlags_keepsUnlisted {f : Flags} {s : State} (h : keepsFlags i s.flags f) :
    keepsUnlisted i s (s.setFlags f) :=
  ⟨fun _ => rfl, fun _ => rfl, fun _ => rfl, fun _ => rfl, h⟩

/-! ### Shared operations -/

theorem BusFrame.keepsUnlisted {s t : State} (h : BusFrame s t) : keepsUnlisted i s t :=
  ⟨fun _ => h.a, fun _ => h.x, fun _ => h.y, fun _ => h.sp, by rw [h.flags]; exact .refl _⟩

theorem transferInto_keepsUnlisted {set : Byte → State → State} (hset : ∀ v s, keepsUnlisted i s (set v s))
    (hblind : ∀ v, FlagBlind (set v)) (h : Spec.writesNZ i = true) (v : Byte) (s : State) :
    keepsUnlisted i s (transferInto set v s) := by
  refine (hset v s).trans (setFlags_keepsUnlisted ?_)
  rw [(hblind v).flags]
  exact setNZ_keepsFlags h _ _

/-- A load is a read and then a transfer of the byte read. -/
theorem loadInto_keepsUnlisted {set : Byte → State → State} (hset : ∀ v s, keepsUnlisted i s (set v s))
    (hblind : ∀ v, FlagBlind (set v)) (h : Spec.writesNZ i = true) (o : ReadOperand) (s : State) :
    keepsUnlisted i s (loadInto set o s) := by
  have read : keepsUnlisted i s (readOperand o s).2 := (BusFrame.of_readOperand o s).keepsUnlisted
  exact read.trans (transferInto_keepsUnlisted hset hblind h _ _)

theorem accumulate_keepsUnlisted (hA : Spec.writesA i = true) {g : Byte → Byte → Flags → Byte × Flags}
    (hg : ∀ a m f, keepsFlags i f (g a m f).2) (o : ReadOperand) (s : State) :
    keepsUnlisted i s (accumulate g o s) := by
  have read : keepsUnlisted i s (readOperand o s).2 := (BusFrame.of_readOperand o s).keepsUnlisted
  exact (read.trans (setA_keepsUnlisted hA _ _)).trans (setFlags_keepsUnlisted (hg _ _ _))

theorem testWith_keepsUnlisted {g : Byte → Byte → Flags → Flags} (hg : ∀ r m f, keepsFlags i f (g r m f))
    (r : Byte) (o : ReadOperand) (s : State) : keepsUnlisted i s (testWith g r o s) := by
  have read : keepsUnlisted i s (readOperand o s).2 := (BusFrame.of_readOperand o s).keepsUnlisted
  exact read.trans (setFlags_keepsUnlisted (hg _ _ _))

theorem modifyMemory_keepsUnlisted {g : Byte → Flags → Byte × Flags} (hg : ∀ v f, keepsFlags i f (g v f).2)
    (m : Mode) (s : State) : keepsUnlisted i s (modifyOperand g (.mem m) s) := by
  have read : keepsUnlisted i s (busRead (effAddr m s) s).2 := (BusFrame.of_busRead _ s).keepsUnlisted
  refine (read.trans (BusFrame.of_busWrite _ _ _).keepsUnlisted).trans (setFlags_keepsUnlisted ?_)
  rw [busWrite_flags]
  exact hg _ _

/-- A shift writes A exactly where A is its operand. -/
theorem shift_keepsUnlisted {g : Byte → Flags → Byte × Flags} (hg : ∀ v f, keepsFlags i f (g v f).2) (o : ShiftForm)
    (hA : Spec.writesA i = Spec.onAccumulator o) (s : State) :
    keepsUnlisted i s (modifyOperand g (shiftOperand o) s) := by
  cases o with
  | acc => exact (setA_keepsUnlisted hA _ s).trans (setFlags_keepsUnlisted (hg _ _))
  | zp z => exact modifyMemory_keepsUnlisted hg (.zp z) s
  | zpX z => exact modifyMemory_keepsUnlisted hg (.zpX z) s
  | abs a => exact modifyMemory_keepsUnlisted hg (.abs a) s
  | absX a => exact modifyMemory_keepsUnlisted hg (.absX a) s

theorem branchIf_keepsUnlisted (c : Bool) (off : Byte) (s : State) : keepsUnlisted i s (branchIf c off s) := by
  cases c with
  | true => exact setPc_keepsUnlisted _ (s.charge _)
  | false => exact .refl s

theorem push8_keepsUnlisted (h : Spec.writesS i = true) (v : Byte) (s : State) : keepsUnlisted i s (push8 v s) :=
  (BusFrame.of_busWrite _ _ _).keepsUnlisted.trans (setSp_keepsUnlisted h _ _)

theorem push16_keepsUnlisted (h : Spec.writesS i = true) (w : Addr) (s : State) : keepsUnlisted i s (push16 w s) :=
  (push8_keepsUnlisted h _ s).trans (push8_keepsUnlisted h _ _)

theorem pull8_keepsUnlisted (h : Spec.writesS i = true) (s : State) : keepsUnlisted i s (pull8 s).2 :=
  (setSp_keepsUnlisted h _ s).trans (BusFrame.of_busRead _ _).keepsUnlisted

theorem pull16_keepsUnlisted (h : Spec.writesS i = true) (s : State) : keepsUnlisted i s (pull16 s).2 :=
  (pull8_keepsUnlisted h s).trans (pull8_keepsUnlisted h _)

end

/-! ### Every instruction -/

/-- Instruction by instruction; each `rfl` reads a register in its list of writers. A register stepped by one is a
transfer of its successor or predecessor. -/
theorem exec_keepsUnlisted {i : Instr} {s t : State} (h : exec i s = .next t) : keepsUnlisted i s t := by
  cases i
  case pla =>
    rw [exec_pla] at h; cases h
    exact (pull8_keepsUnlisted rfl s).trans
      (transferInto_keepsUnlisted (setA_keepsUnlisted rfl) State.setA_setFlags rfl _ _)
  case plp =>
    rw [exec_plp] at h; cases h
    exact (pull8_keepsUnlisted rfl s).trans (setFlags_keepsUnlisted ⟨nofun, nofun, nofun, nofun, nofun, nofun⟩)
  case rts =>
    rw [exec_rts] at h; cases h
    exact (pull16_keepsUnlisted rfl s).trans (setPc_keepsUnlisted _ _)
  case jmp o =>
    cases o with
    | abs a => cases h; exact setPc_keepsUnlisted a s
    | ind ptr =>
      rw [exec_jmpInd] at h; cases h
      have reads := (BusFrame.of_busRead ptr s).trans (BusFrame.of_busRead (pointerHigh ptr) _)
      exact reads.keepsUnlisted.trans (setPc_keepsUnlisted _ _)
  all_goals cases h
  case lda => exact loadInto_keepsUnlisted (setA_keepsUnlisted rfl) State.setA_setFlags rfl _ s
  case ldx => exact loadInto_keepsUnlisted (setX_keepsUnlisted rfl) State.setX_setFlags rfl _ s
  case ldy => exact loadInto_keepsUnlisted (setY_keepsUnlisted rfl) State.setY_setFlags rfl _ s
  case sta | stx | sty => exact (BusFrame.of_busWrite _ _ s).keepsUnlisted
  case txa | tya => exact transferInto_keepsUnlisted (setA_keepsUnlisted rfl) State.setA_setFlags rfl _ s
  case tax | tsx | inx | dex => exact transferInto_keepsUnlisted (setX_keepsUnlisted rfl) State.setX_setFlags rfl _ s
  case tay | iny | dey => exact transferInto_keepsUnlisted (setY_keepsUnlisted rfl) State.setY_setFlags rfl _ s
  case txs => exact setSp_keepsUnlisted rfl _ s
  case adc | sbc => exact accumulate_keepsUnlisted rfl (fun _ _ => adc_keepsFlags rfl rfl rfl _ _) _ s
  case and | ora | eor => exact accumulate_keepsUnlisted rfl (fun _ _ => setNZ_keepsFlags rfl _) _ s
  case cmp | cpx | cpy => exact testWith_keepsUnlisted (compare_keepsFlags rfl rfl) _ _ s
  case bit => exact testWith_keepsUnlisted (bitTest_keepsFlags rfl rfl) _ _ s
  case inc | dec => exact modifyMemory_keepsUnlisted (fun _ => setNZ_keepsFlags rfl _) _ s
  case asl | lsr | rol | ror =>
    exact shift_keepsUnlisted (fun _ f => (setC_keepsFlags rfl _ f).trans (setNZ_keepsFlags rfl _ _)) _ rfl s
  case bpl | bmi | bvc | bvs | bcc | bcs | bne | beq => exact branchIf_keepsUnlisted _ _ s
  case jsr => exact (push16_keepsUnlisted rfl _ s).trans (setPc_keepsUnlisted _ _)
  case pha | php => exact push8_keepsUnlisted rfl _ s
  case clc | sec => exact setFlags_keepsUnlisted (setC_keepsFlags rfl _ _)
  case cli | sei => exact setFlags_keepsUnlisted (setI_keepsFlags rfl _ _)
  case cld | sed => exact setFlags_keepsUnlisted (setD_keepsFlags rfl _ _)
  case clv => exact setFlags_keepsUnlisted (setV_keepsFlags rfl _ _)
  case brk =>
    rw [takeInterrupt_eq]
    exact ⟨fun _ => rfl, fun _ => rfl, fun _ => rfl, nofun, fun _ => rfl, fun _ => ⟨rfl, rfl⟩, nofun, fun _ => rfl,
      fun _ => rfl, nofun⟩
  case rti =>
    rw [returnFromInterrupt_eq]
    exact ⟨fun _ => rfl, fun _ => rfl, fun _ => rfl, nofun, nofun, nofun, nofun, nofun, nofun, nofun⟩
  case nop | ill => exact .refl s

/-- Settles O38: instruction by instruction, from what the shared operations keep. -/
theorem registersChangeOnlyByTheirWriters : Obligations.RegistersChangeOnlyByTheirWriters :=
  fun _ _ _ h => exec_keepsUnlisted h

/-! ## The reset state (R75, R902) -/

theorem reset_wellStored : State.reset.wellStored :=
  ⟨by decide, by decide, by decide, ⟨by decide, by decide, by decide, trivial⟩, rfl⟩

theorem reset_queueOrdered : State.reset.queueOrdered := by decide

theorem reset_fresh : State.reset.fresh := by decide

/-- Settles O43: the invariant and *fresh* of the one reset state, and its fields. -/
theorem resetMeetsTheInvariantAndTheSpecValues : Obligations.ResetMeetsTheInvariantAndTheSpecValues :=
  ⟨⟨reset_wellStored, reset_queueOrdered⟩, reset_fresh, rfl, rfl, rfl, rfl, rfl, rfl⟩

end Sys2Proof.Machine

/-!
PROOFS of the family 20_memory.md (O5, O6, O7, O8, O9, O37, O39). The parts: the address map in numbers (O5, O6, O7,
O8); a stored byte and its mirrors (O9); the effective addresses as the spec counts them; what an instruction stores
(`Stores`), from which come the frame of plain memory (O37) and the frame of the platform (O39).
-/

namespace Sys2Proof.Machine

/-! ## The address map (R105, R110, R111)

The statements mask the address; the model divides it. -/

/-! ### Masks -/

theorem and_07FF_toNat (a : Addr) : (a &&& 0x07FF).toNat = ramIndex a := by
  rw [BitVec.toNat_and]; exact Nat.and_two_pow_sub_one_eq_mod a.toNat 11

theorem and_7_toNat (a : Addr) : (a &&& 7).toNat = a.toNat % 8 := by
  rw [BitVec.toNat_and]; exact Nat.and_two_pow_sub_one_eq_mod a.toNat 3

theorem and_3FFF_toNat (a : Addr) : (a &&& 0x3FFF).toNat = a.toNat % 0x4000 := by
  rw [BitVec.toNat_and]; exact Nat.and_two_pow_sub_one_eq_mod a.toNat 14

theorem and_4000_eq_zero (a : Addr) : a &&& 0x4000 = 0 ↔ a.getLsbD 14 = false := by
  have mask : (0x4000 : Addr) = BitVec.twoPow 16 14 := rfl
  rw [mask, BitVec.and_twoPow]
  cases a.getLsbD 14 <;> decide

theorem sub_6000_toNat {a : Addr} (h : 0x6000 ≤ a.toNat) : (a - 0x6000).toNat = a.toNat - 0x6000 :=
  BitVec.toNat_sub_of_le (BitVec.le_def.2 h)

/-! ### Reads, range by range -/

/-- A read of a PPU port. -/
theorem busRead_ppu {a : Addr} (s : State) (h : 0x2000 ≤ a.toNat) (k : a.toNat < 0x4000) :
    busRead a s = ppuPortRead (a.toNat % 8) s := by
  unfold busRead; rw [if_neg (by omega), if_pos k]

/-- A read of the 0x4000-0x401F ports. -/
theorem busRead_io {a : Addr} (s : State) (h : 0x4000 ≤ a.toNat) (k : a.toNat < 0x4020) :
    busRead a s = ioRead a s := by
  unfold busRead; rw [if_neg (by omega), if_neg (by omega), if_pos k]

/-- A read of the expansion range. -/
theorem busRead_expansion {a : Addr} (s : State) (h : 0x4020 ≤ a.toNat) (k : a.toNat < 0x6000) :
    busRead a s = (0x00, s) := by
  unfold busRead; rw [if_neg (by omega), if_neg (by omega), if_neg (by omega), if_pos k]

/-- A read of the SRAM window. -/
theorem busRead_sramWindow {a : Addr} (s : State) (h : 0x6000 ≤ a.toNat) (k : a.toNat < 0x8000) :
    busRead a s = if s.cart.hasSram then (s.sram.read (a.toNat - 0x6000), s) else drawByte s := by
  unfold busRead; rw [if_neg (by omega), if_neg (by omega), if_neg (by omega), if_neg (by omega), if_pos k]

/-- `Mapper.read` (R1301) with the masks of the spec. -/
theorem prgRead_eq (a : Addr) (s : State) :
    prgRead a s = s.cart.prg.read
      (((if a &&& 0x4000 = 0 then s.mapper.win.prg0 else s.mapper.win.prg1) + (a &&& 0x3FFF).toNat) %
        (16384 * s.cart.prgPages)) := by
  have window : (if a.getLsbD 14 then s.mapper.win.prg1 else s.mapper.win.prg0) =
      if a &&& 0x4000 = 0 then s.mapper.win.prg0 else s.mapper.win.prg1 := by
    simp only [and_4000_eq_zero]; cases a.getLsbD 14 <;> rfl
  unfold prgRead prgOffset prgSize
  rw [window, and_3FFF_toNat]

/-- Settles O5: range by range. -/
theorem busReadsFollowTheMap : Obligations.BusReadsFollowTheMap := by
  intro a s
  simp only [BitVec.le_def]
  refine ⟨fun h => ?_, fun h k => ?_, ?_, ?_, ?_, fun h k h5 h6 h7 => ?_, fun h k => ?_, fun h k hs => ?_,
    fun h k hs => ?_, fun h => ?_⟩
  · rw [and_07FF_toNat]; exact busRead_ram s (Nat.lt_succ_of_le h)
  · rw [and_7_toNat]; exact busRead_ppu s h (Nat.lt_succ_of_le k)
  · rintro rfl; rfl
  · rintro rfl; rfl
  · rintro rfl; rfl
  · have h5 : a.toNat ≠ 0x4015 := fun e => h5 (BitVec.eq_of_toNat_eq e)
    have h6 : a.toNat ≠ 0x4016 := fun e => h6 (BitVec.eq_of_toNat_eq e)
    have h7 : a.toNat ≠ 0x4017 := fun e => h7 (BitVec.eq_of_toNat_eq e)
    rw [busRead_io s h (Nat.lt_succ_of_le k)]
    unfold ioRead
    rw [if_neg h5, if_neg h6, if_neg h7]
  · exact busRead_expansion s h (Nat.lt_succ_of_le k)
  · rw [busRead_sramWindow s h (Nat.lt_succ_of_le k), if_pos hs, sub_6000_toNat h]
  · rw [busRead_sramWindow s h (Nat.lt_succ_of_le k), hs]; rfl
  · rw [← prgRead_eq]; exact busRead_prg s h

/-- Settles O6: range by range. -/
theorem busWritesFollowTheMap : Obligations.BusWritesFollowTheMap := by
  intro a v s
  simp only [BitVec.le_def]
  refine ⟨fun h => ?_, fun h k => ?_, ?_, ?_, ?_, fun h k => ?_, fun h k hs => ?_, fun h k hs => ?_, fun h => ?_,
    busWrite_prg a v s⟩
  · rw [and_07FF_toNat]; exact busWrite_ram v s (Nat.lt_succ_of_le h)
  · rw [and_7_toNat]; exact busWrite_ppu v s h (Nat.lt_succ_of_le k)
  · rintro (⟨h, k⟩ | rfl | rfl)
    · have h : 0x4000 ≤ a.toNat := h
      have k : a.toNat ≤ 0x4013 := k
      rw [busWrite_io v s h (by omega)]
      exact if_pos (.inl k)
    · rfl
    · rfl
  · rintro rfl; rfl
  · rintro rfl; rfl
  · have h : 0x4018 ≤ a.toNat := h
    have k : a.toNat ≤ 0x5FFF := k
    by_cases io : a.toNat < 0x4020
    · rw [busWrite_io v s (by omega) io]
      unfold ioWrite
      rw [if_neg (by omega), if_neg (by omega), if_neg (by omega)]
    · exact busWrite_expansion v s (by omega) (by omega)
  · rw [busWrite_sram v s h (Nat.lt_succ_of_le k), if_pos hs, sub_6000_toNat h]
  · rw [busWrite_sram v s h (Nat.lt_succ_of_le k), hs]; rfl
  · exact busWrite_mapper v s h

/-- Settles O7: what a read can change (`busRead_state`) is no byte of plain memory. -/
theorem busReadsChangeOnlyDeviceState : Obligations.BusReadsChangeOnlyDeviceState :=
  fun a s => ⟨fun _ => busRead_of_peek, fun b => peek_busRead a b s, _, _, _, _, _, _, _, busRead_state a s⟩

/-! ### Mirrors (R113) -/

/-- The number of the `i`-th mirror of RAM byte `a`. -/
theorem ramMirror_toNat {a i : Nat} (ha : a < 0x800) (hi : i < 4) :
    (BitVec.ofNat 16 (a + 0x800 * i)).toNat = a + 0x800 * i := by
  rw [BitVec.toNat_ofNat, Nat.mod_eq_of_lt (by omega)]

theorem ramMirror_lt {a i : Nat} (ha : a < 0x800) (hi : i < 4) : (BitVec.ofNat 16 (a + 0x800 * i)).toNat < 0x2000 := by
  rw [ramMirror_toNat ha hi]; omega

theorem ramIndex_ramMirror {a i : Nat} (ha : a < 0x800) (hi : i < 4) :
    ramIndex (BitVec.ofNat 16 (a + 0x800 * i)) = a := by
  unfold ramIndex; rw [ramMirror_toNat ha hi]; omega

/-- A RAM byte is read back through every mirror of it. -/
theorem busRead_busWrite_ram {a b : Addr} (v : Byte) (s : State) (ha : a.toNat < 0x2000) (hb : b.toNat < 0x2000)
    (h : ramIndex b = ramIndex a) : busRead b (busWrite a v s) = (v, busWrite a v s) :=
  busRead_of_peek (by rw [peek_busWrite_ram v b s ha, if_pos ⟨hb, h⟩])

/-- The port an address in 0x2000-0x3FFF names. -/
theorem ppuPort_toNat (a : Addr) : (0x2000 + (a &&& 7)).toNat = 0x2000 + a.toNat % 8 := by
  rw [BitVec.toNat_add, and_7_toNat]
  exact Nat.mod_eq_of_lt (show 0x2000 + a.toNat % 8 < 0x10000 by omega)

/-- Settles O8: all four mirrors have one RAM index, and all mirrors of a port one port number. -/
theorem ramMirrorsAliasOneByte : Obligations.RamMirrorsAliasOneByte := by
  constructor
  · intro a i j v s ha hi hj
    have h : ramIndex (BitVec.ofNat 16 (a + 0x800 * j)) = ramIndex (BitVec.ofNat 16 (a + 0x800 * i)) := by
      rw [ramIndex_ramMirror ha hj, ramIndex_ramMirror ha hi]
    rw [busRead_busWrite_ram v s (ramMirror_lt ha hi) (ramMirror_lt ha hj) h]
  · intro a v s h k
    have h : 0x2000 ≤ a.toNat := h
    have k : a.toNat < 0x4000 := Nat.lt_succ_of_le k
    have port : (0x2000 + (a &&& 7)).toNat % 8 = a.toNat % 8 := by rw [ppuPort_toNat]; omega
    have low : 0x2000 ≤ (0x2000 + (a &&& 7)).toNat := by rw [ppuPort_toNat]; omega
    have high : (0x2000 + (a &&& 7)).toNat < 0x4000 := by rw [ppuPort_toNat]; omega
    rw [busWrite_ppu v s h k, busWrite_ppu v s low high, busRead_ppu s h k, busRead_ppu s low high, port]
    exact ⟨rfl, rfl⟩

/-! ## A stored byte and its mirrors -/

/-- Below 0x8000 no byte of plain memory is read through the mapper. -/
theorem peek_mapperWrite {b : Addr} (h : b.toNat < 0x8000) (a : Addr) (d : Byte) (s : State) :
    peek b (mapperWrite a d s) = peek b s := by
  rw [mapperWrite_state]; unfold peek; simp only [h, if_true]

/-- A bus write changes no plain byte but the one it names, unless it is a mapper register write, which can change
what is read from 0x8000 up. -/
theorem peek_busWrite_of_not_sameByte {a b : Addr} (v : Byte) (s : State) (h : ¬ Spec.sameByte a.toNat b.toNat)
    (k : b.toNat < 0x8000 ∨ a.toNat < 0x8000) : peek b (busWrite a v s) = peek b s := by
  unfold Spec.sameByte at h
  by_cases ram : a.toNat < 0x2000
  · rw [peek_busWrite_ram v b s ram, if_neg]
    rintro ⟨hb, e⟩
    exact h (.inr ⟨ram, hb, e.symm⟩)
  by_cases ports : a.toNat < 0x6000
  · exact peek_busWrite_io v b s (by omega) ports
  by_cases sram : a.toNat < 0x8000
  · rw [peek_busWrite_sram v b s (by omega) sram, if_neg]
    rintro ⟨rfl, -⟩
    exact h (.inl rfl)
  · rw [busWrite_mapper v s (by omega)]
    exact peek_mapperWrite (by omega) a v s

/-- Settles O9: the written byte is what `peek` shows at its address; the rest by `peek_busWrite_of_not_sameByte`. -/
theorem storedByteIsReadBack : Obligations.StoredByteIsReadBack := by
  rintro a v s (ram | ⟨h, k, sram⟩)
  · exact ⟨busRead_busWrite_ram v s ram ram rfl, fun b hb => peek_busWrite_of_not_sameByte v s hb (.inr (by omega))⟩
  · refine ⟨busRead_of_peek ?_, fun b hb => peek_busWrite_of_not_sameByte v s hb (.inr k)⟩
    rw [peek_busWrite_sram v a s h k, if_pos ⟨rfl, sram⟩]

/-! ## Effective addresses (R211-R219) -/

/-- The pointer in page 0 as the spec counts it. -/
theorem zpPointer_toNat (p : Byte) (s : State) : (zpPointer p s).toNat = Spec.zpWord s p.toNat := by
  have wrap : (p + 1).toNat = (p.toNat + 1) % 256 := BitVec.toNat_add p 1
  rw [zpPointer_eq, word16_toNat, wrap]
  exact Nat.add_comm _ _

/-- `EA(mode)` is the spec's number. -/
theorem effAddr_toNat (m : Mode) (s : State) : (effAddr m s).toNat = Spec.ea m s := by
  have index (w : Addr) (r : Byte) : (w + r.setWidth 16).toNat = (w.toNat + r.toNat) % 65536 := by
    rw [BitVec.toNat_add, BitVec.toNat_setWidth_of_le (by decide)]
  cases m with
  | zp z => exact zpAddr_toNat z
  | zpX z => exact (zpAddr_toNat _).trans (BitVec.toNat_add z s.x)
  | zpY z => exact (zpAddr_toNat _).trans (BitVec.toNat_add z s.y)
  | abs a => rfl
  | absX a => exact index a s.x
  | absY a => exact index a s.y
  | indX z => exact (zpPointer_toNat _ s).trans (congrArg _ (BitVec.toNat_add z s.x))
  | indY z => exact (index _ s.y).trans (by rw [baseAddr, zpPointer_toNat]; rfl)

/-! ## What an instruction stores

An instruction reads, changes registers and the cost, and in between stores: one byte through the bus at its effective
address, or bytes of the stack. -/

/-- `t` is `s` but for the CPU registers, the cost, and what a bus read can change. -/
def StoresNothing (s t : State) : Prop :=
  t = { s with
    a := t.a, x := t.x, y := t.y, sp := t.sp, pc := t.pc, flags := t.flags, cost := t.cost
    ppu := { s.ppu with v := t.ppu.v, w := t.ppu.w, rdbuf := t.ppu.rdbuf, vblank := t.ppu.vblank }
    pads := { s.pads with idx0 := t.pads.idx0, idx1 := t.pads.idx1 }
    draws := t.draws }

namespace StoresNothing

theorem refl (s : State) : StoresNothing s s := rfl

theorem trans {s t u : State} (h : StoresNothing s t) (k : StoresNothing t u) : StoresNothing s u := by
  unfold StoresNothing at h k ⊢
  rw [h] at k
  exact k

/-! ### Shared operations -/

theorem of_setA (v : Byte) (s : State) : StoresNothing s (s.setA v) := rfl

theorem of_setX (v : Byte) (s : State) : StoresNothing s (s.setX v) := rfl

theorem of_setY (v : Byte) (s : State) : StoresNothing s (s.setY v) := rfl

theorem of_setPc (w : Addr) (s : State) : StoresNothing s (s.setPc w) := rfl

theorem of_setFlags (f : Flags) (s : State) : StoresNothing s (s.setFlags f) := rfl

theorem of_busRead (a : Addr) (s : State) : StoresNothing s (busRead a s).2 := by
  rw [busRead_state]; rfl

theorem of_readOperand (o : ReadOperand) (s : State) : StoresNothing s (readOperand o s).2 := by
  cases o with
  | imm b => exact refl s
  | mem m =>
    have charges : StoresNothing s (s.charge (crossPenalty m s)) := rfl
    exact charges.trans (of_busRead _ _)

theorem of_transferInto {set : Byte → State → State} (hset : ∀ v s, StoresNothing s (set v s)) (v : Byte) (s : State) :
    StoresNothing s (transferInto set v s) :=
  (hset v s).trans (of_setFlags _ _)

/-- A load is a read and then a transfer of the byte read. -/
theorem of_loadInto {set : Byte → State → State} (hset : ∀ v s, StoresNothing s (set v s)) (o : ReadOperand)
    (s : State) : StoresNothing s (loadInto set o s) :=
  (of_readOperand o s).trans (of_transferInto hset _ _)

theorem of_accumulate (g : Byte → Byte → Flags → Byte × Flags) (o : ReadOperand) (s : State) :
    StoresNothing s (accumulate g o s) := by
  have sets (v : Byte) (f : Flags) (u : State) : StoresNothing u ((u.setA v).setFlags f) := rfl
  exact (of_readOperand o s).trans (sets _ _ _)

theorem of_testWith (g : Byte → Byte → Flags → Flags) (r : Byte) (o : ReadOperand) (s : State) :
    StoresNothing s (testWith g r o s) :=
  (of_readOperand o s).trans (of_setFlags _ _)

theorem of_branchIf (c : Bool) (off : Byte) (s : State) : StoresNothing s (branchIf c off s) := by cases c <;> rfl

theorem of_pull8 (s : State) : StoresNothing s (pull8 s).2 := by rw [pull8_eq]; rfl

theorem of_pull16 (s : State) : StoresNothing s (pull16 s).2 := by rw [pull16_eq]; rfl

theorem of_returnFromInterrupt (s : State) : StoresNothing s (returnFromInterrupt s) := by
  rw [returnFromInterrupt_eq]; rfl

/-! ### What it leaves -/

theorem peek {s t : State} (h : StoresNothing s t) (b : Addr) : Machine.peek b t = Machine.peek b s := by
  rw [h]; rfl

theorem prg {s t : State} (h : StoresNothing s t) : t.cart.prg = s.cart.prg := by rw [h]

end StoresNothing

/-- How the stores of an instruction, at the addresses `l`, take `s` to `t`. -/
inductive Stores (l : List Nat) (s t : State) : Prop where
  /-- no store -/
  | none (hl : l = []) (h : StoresNothing s t)
  /-- a bus write at the effective address, at the time charged before `exec` -/
  | bus (m : Mode) (v : Byte) (u : State) (hl : l = [Spec.ea m s]) (before : StoresNothing s u)
      (cost : u.cost = s.cost) (after : StoresNothing (busWrite (effAddr m s) v u) t)
  /-- pushes: the RAM `ram` has the old bytes but in page 1 at `l` -/
  | push (ram : Memory) (page : ∀ a ∈ l, a < 0x800) (old : ∀ k, k ∉ l → ram.read k = s.ram.read k)
      (h : StoresNothing { s with ram := ram } t)

theorem Stores.of_writeOperand (m : Mode) (v : Byte) (s : State) : Stores [Spec.ea m s] s (writeOperand m v s) :=
  .bus m v s rfl (.refl s) rfl (.refl _)

theorem Stores.of_modifyMemory (g : Byte → Flags → Byte × Flags) (m : Mode) (s : State) :
    Stores [Spec.ea m s] s (modifyOperand g (.mem m) s) :=
  .bus m _ _ rfl (.of_busRead _ s) (busRead_cost _ s) (.of_setFlags _ _)

theorem Stores.of_shift (g : Byte → Flags → Byte × Flags) (o : ShiftForm) (s : State) :
    Stores ((Spec.shiftMode o).map fun m => Spec.ea m s).toList s (modifyOperand g (shiftOperand o) s) := by
  cases o with
  | acc => exact .none rfl rfl
  | zp z => exact of_modifyMemory g (.zp z) s
  | zpX z => exact of_modifyMemory g (.zpX z) s
  | abs a => exact of_modifyMemory g (.abs a) s
  | absX a => exact of_modifyMemory g (.absX a) s

/-! ### The stack slots (R51) -/

theorem slot_lt (s : State) (k : Nat) : Spec.slot s k < 0x800 := by unfold Spec.slot; omega

/-- The stack byte at S. -/
theorem slot_zero (s : State) : 0x100 + s.sp.toNat = Spec.slot s 0 := by
  have := s.sp.isLt
  unfold Spec.slot; omega

/-- The stack byte one below S. -/
theorem slot_255 (s : State) : 0x100 + (s.sp - 1).toNat = Spec.slot s 255 := by
  have := s.sp.isLt
  unfold Spec.slot; rw [BitVec.toNat_sub]; simp; omega

/-- The stack byte two below S. -/
theorem slot_254 (s : State) : 0x100 + (s.sp - 2).toNat = Spec.slot s 254 := by
  have := s.sp.isLt
  unfold Spec.slot; rw [BitVec.toNat_sub]; simp; omega

theorem Stores.of_push8 (v : Byte) (s : State) : Stores [Spec.slot s 0] s (push8 v s) := by
  rw [push8_eq, slot_zero]
  exact .push (s.ram.write (Spec.slot s 0) v) (by simp [slot_lt]) (by simp +contextual) rfl

theorem Stores.of_push16 (w : Addr) (s : State) : Stores [Spec.slot s 0, Spec.slot s 255] s (push16 w s) := by
  rw [push16_eq, slot_zero, slot_255]
  exact .push ((s.ram.write (Spec.slot s 0) (hiByte w)).write (Spec.slot s 255) (loByte w)) (by simp [slot_lt])
    (by simp +contextual) rfl

theorem Stores.of_takeInterrupt (e : Entry) (s : State) :
    Stores [Spec.slot s 0, Spec.slot s 255, Spec.slot s 254] s (takeInterrupt e s) := by
  rw [takeInterrupt_eq, slot_zero, slot_255, slot_254]
  exact .push (((s.ram.write (Spec.slot s 0) (hiByte s.pc)).write (Spec.slot s 255) (loByte s.pc)).write
    (Spec.slot s 254) (packP (entryBreak e) s.flags)) (by simp [slot_lt]) (by simp +contextual) rfl

theorem Stores.andThen {l : List Nat} {s t u : State} (h : Stores l s t) (k : StoresNothing t u) : Stores l s u := by
  cases h with
  | none hl h => exact .none hl (h.trans k)
  | bus m v w hl before cost after => exact .bus m v w hl before cost (after.trans k)
  | push ram page old h => exact .push ram page old (h.trans k)

/-! ### Every instruction -/

/-- Instruction by instruction: `ill` logs, and every other does no more than store at `Spec.storesTo`. -/
theorem exec_stores {i : Instr} {s t : State} (h : exec i s = .next t) :
    (∃ op, i = .ill op ∧ t = diagnostic op (s.pc - 1) s) ∨ Stores (Spec.storesTo i s) s t := by
  cases i
  case ill op => cases h; exact .inl ⟨op, rfl, rfl⟩
  all_goals right
  case pla =>
    rw [exec_pla] at h; cases h
    exact .none rfl ((StoresNothing.of_pull8 s).trans (.of_transferInto StoresNothing.of_setA _ _))
  case plp =>
    rw [exec_plp] at h; cases h
    exact .none rfl ((StoresNothing.of_pull8 s).trans (.of_setFlags _ _))
  case rts =>
    rw [exec_rts] at h; cases h
    exact .none rfl ((StoresNothing.of_pull16 s).trans (.of_setPc _ _))
  case jmp o =>
    cases o with
    | abs a => cases h; exact .none rfl (.of_setPc a s)
    | ind ptr =>
      rw [exec_jmpInd] at h; cases h
      have reads := (StoresNothing.of_busRead ptr s).trans (.of_busRead (pointerHigh ptr) _)
      exact .none rfl (reads.trans (.of_setPc _ _))
  all_goals cases h
  case sta | stx | sty => exact .of_writeOperand _ _ s
  case inc | dec => exact .of_modifyMemory _ _ s
  case asl | lsr | rol | ror => exact .of_shift _ _ s
  case pha | php => exact .of_push8 _ s
  case jsr a => exact (Stores.of_push16 _ s).andThen (.of_setPc a _)
  case brk => exact .of_takeInterrupt .brk s
  case lda => exact .none rfl (.of_loadInto StoresNothing.of_setA _ s)
  case ldx => exact .none rfl (.of_loadInto StoresNothing.of_setX _ s)
  case ldy => exact .none rfl (.of_loadInto StoresNothing.of_setY _ s)
  case adc | sbc | and | ora | eor => exact .none rfl (.of_accumulate _ _ s)
  case cmp | cpx | cpy | bit => exact .none rfl (.of_testWith _ _ _ s)
  case bpl | bmi | bvc | bvs | bcc | bcs | bne | beq => exact .none rfl (.of_branchIf _ _ s)
  case rti => exact .none rfl (.of_returnFromInterrupt s)
  case tax | tay | txa | tya | tsx | txs | inx | iny | dex | dey => exact .none rfl rfl
  case clc | sec | cli | sei | cld | sed | clv | nop => exact .none rfl rfl

/-! ## The frame of plain memory (R103, R111, R113, R223) -/

theorem Stores.prg {l : List Nat} {s t : State} (h : Stores l s t) : t.cart.prg = s.cart.prg := by
  cases h with
  | none _ h => exact h.prg
  | bus m v u _ before _ after => rw [after.prg, busWrite_prg, before.prg]
  | push ram _ _ h => exact h.prg

/-- New bytes in RAM below 0x800 show at their mirrors only. -/
theorem peek_ram {l : List Nat} {ram : Memory} {b : Addr} {s : State} (page : ∀ a ∈ l, a < 0x800)
    (old : ∀ k, k ∉ l → ram.read k = s.ram.read k) (hb : ∀ a ∈ l, ¬ Spec.sameByte a b.toNat) :
    peek b { s with ram := ram } = peek b s := by
  unfold peek
  by_cases low : b.toNat < 0x2000
  · have unstored : ramIndex b ∉ l := fun hmem => by
      have := page _ hmem
      exact hb _ hmem (.inr ⟨by omega, low, Nat.mod_mod _ _⟩)
    rw [if_pos low, if_pos low]
    exact congrArg some (old _ unstored)
  · rw [if_neg low, if_neg low]; rfl

theorem Stores.peek {l : List Nat} {s t : State} (h : Stores l s t) {b : Addr}
    (hb : ∀ a ∈ l, ¬ Spec.sameByte a b.toNat) (window : b.toNat < 0x8000 ∨ ∀ a ∈ l, a < 0x8000) :
    Machine.peek b t = Machine.peek b s := by
  cases h with
  | none _ h => exact h.peek b
  | bus m v u hl before _ after =>
    subst hl
    simp only [List.mem_singleton, forall_eq, ← effAddr_toNat] at hb window
    rw [after.peek, peek_busWrite_of_not_sameByte v u hb window, before.peek]
  | push ram page old h => rw [h.peek, peek_ram page old hb]

/-- Settles O37: from the stores of the instruction (`exec_stores`); `ill` changes the log only. -/
theorem storesTouchOnlyTheirBytes : Obligations.StoresTouchOnlyTheirBytes := by
  intro i s t h
  obtain ⟨op, -, rfl⟩ | stores := exec_stores h
  · exact ⟨rfl, fun _ _ _ => rfl⟩
  · exact ⟨stores.prg, fun _ => stores.peek⟩

/-! ## The frame of the platform (R153, R803, R904, R1101, R1304) -/

/-- `t` has the platform of `s`: the run loop's counters, the frame driver, the parameters, the log, the applied state
of the APU, the image, the pads' snapshots and the sprite flags; the deferred queue has at most one entry more, stamped
`s.clock + s.cost`. -/
structure PlatformKept (s t : State) : Prop where
  remaining : t.remaining = s.remaining
  clock : t.clock = s.clock
  frame : t.frame = s.frame
  params : t.params = s.params
  apu : t.apu = s.apu ∨ ∃ (a : Addr) (v : Byte),
    t.apu = { s.apu with queue := s.apu.queue ++ [{ ts := s.clock + s.cost, addr := a, val := v }] }
  cart : t.cart = { s.cart with chr := t.cart.chr }
  image : s.cart.chrPages ≠ 0 → t.cart = s.cart
  snap0 : t.pads.snap0 = s.pads.snap0
  snap1 : t.pads.snap1 = s.pads.snap1
  sprite0hit : t.ppu.sprite0hit = s.ppu.sprite0hit
  sprOverflow : t.ppu.sprOverflow = s.ppu.sprOverflow
  diag : t.diag = s.diag

theorem PlatformKept.refl (s : State) : PlatformKept s s := by
  constructor
  case apu => exact .inl rfl
  case image => exact fun _ => rfl
  all_goals rfl

/-- What stores nothing keeps the platform, after whatever has kept it. -/
theorem PlatformKept.andThen {s t u : State} (h : PlatformKept s t) (k : StoresNothing t u) : PlatformKept s u := by
  rw [k]; exact { h with }

/-- What stores nothing keeps the platform, before whatever keeps it, if it has not moved the time of a write. -/
theorem PlatformKept.after {s t u : State} (k : StoresNothing s t) (cost : t.cost = s.cost) (h : PlatformKept t u) :
    PlatformKept s u := by
  rw [k, cost] at h; exact { h with }

/-- CHR ROM is not written (R1303). -/
theorem ppuPortWrite_cart {s : State} (h : s.cart.chrPages ≠ 0) (p : Nat) (d : Byte) :
    (ppuPortWrite p d s).cart = s.cart := by
  have data : (dataWrite d s).cart = s.cart := by
    unfold dataWrite ppuWrite chrWrite
    rw [if_neg h]
    split_ifs <;> rfl
  unfold ppuPortWrite
  split_ifs
  case neg => exact data
  all_goals rfl

theorem ioWrite_cart (a : Addr) (d : Byte) (s : State) : (ioWrite a d s).cart = s.cart := by
  unfold ioWrite
  rw [oamDma_state]
  split_ifs <;> rfl

theorem mapperWrite_cart (a : Addr) (d : Byte) (s : State) : (mapperWrite a d s).cart = s.cart := by
  rw [mapperWrite_state]

/-- With CHR ROM no bus write changes the cartridge. -/
theorem busWrite_cart {s : State} (h : s.cart.chrPages ≠ 0) (a : Addr) (v : Byte) : (busWrite a v s).cart = s.cart := by
  unfold busWrite
  split_ifs
  · rfl
  · exact ppuPortWrite_cart h _ v
  · exact ioWrite_cart a v s
  · exact mapperWrite_cart a v s
  · rfl
  · rfl
  · exact mapperWrite_cart a v s

theorem PlatformKept.of_busWrite (a : Addr) (v : Byte) (s : State) : PlatformKept s (busWrite a v s) := by
  have frame := BusFrame.of_busWrite a v s
  exact {
    remaining := frame.remaining, clock := frame.clock, frame := frame.frame, params := frame.params
    apu := by
      rw [frame.apu]
      exact (busWrite_queue a v s).imp (fun h => by rw [h]) fun h => ⟨a, v, by rw [h]⟩
    cart := frame.cart, image := fun h => busWrite_cart h a v, snap0 := frame.snap0, snap1 := frame.snap1
    sprite0hit := frame.sprite0hit, sprOverflow := frame.sprOverflow, diag := frame.diag }

theorem Stores.platformKept {l : List Nat} {s t : State} (h : Stores l s t) : PlatformKept s t := by
  cases h with
  | none _ h => exact (PlatformKept.refl s).andThen h
  | bus m v u _ before cost after => exact (PlatformKept.after before cost (.of_busWrite _ v u)).andThen after
  | push ram _ _ h =>
    have pushed : PlatformKept s { s with ram := ram } := { PlatformKept.refl s with }
    exact pushed.andThen h

/-- Settles O39: from the stores of the instruction (`exec_stores`); `ill` changes the log only. -/
theorem instructionsLeaveThePlatformAlone : Obligations.InstructionsLeaveThePlatformAlone := by
  intro i s t h
  obtain ⟨op, rfl, rfl⟩ | stores := exec_stores h
  · exact ⟨rfl, rfl, rfl, rfl, .inl rfl, rfl, fun _ => rfl, rfl, rfl, rfl, rfl, fun hill => absurd rfl (hill op)⟩
  · have kept := stores.platformKept
    exact ⟨kept.remaining, kept.clock, kept.frame, kept.params, kept.apu, kept.cart, kept.image, kept.snap0, kept.snap1,
      kept.sprite0hit, kept.sprOverflow, fun _ => kept.diag⟩

end Sys2Proof.Machine

/-!
PROOFS of the family 30_encoding.md (O1, O2, O3, O4). The parts: what the opcode map makes of each opcode byte; the
relation `Encoded` between an instruction and its bytes, to which `encode`, `decode` and the fetch are each tied (O1,
O2); the sample words (O3); a step that runs the bytes at PC, and the unknown opcodes (O4).
-/

namespace Sys2Proof.Machine

/-! ## The opcode map (R201, R230, R250)

The facts about `decodeOp` that take each of the 256 opcode bytes in turn, for all operand bytes at once. -/

/-- The map answers instructions of the table only. -/
theorem decodeOp_wf (op lo hi : Byte) : (decodeOp op lo hi).wf = true := by
  cases op with | ofFin n =>
  fin_cases n <;> rfl

/-- The encoder has, for what the map answers, that opcode and as many of the operand bytes as the opcode has. -/
theorem encode_decodeOp (op lo hi : Byte) : encode (decodeOp op lo hi) =
    if opLength op = 1 then [op] else if opLength op = 2 then [op, lo] else enc3 op (word16 hi lo) := by
  cases op with | ofFin n =>
  fin_cases n <;> rfl

theorem decodeOp_unknown {op : Byte} (h : op ∈ unknownOpcodes) (lo hi : Byte) : decodeOp op lo hi = .ill op := by
  fin_cases h <;> rfl

theorem decodeOp_eq_ill_iff (op lo hi : Byte) : decodeOp op lo hi = .ill op ↔ op ∈ unknownOpcodes := by
  constructor
  · intro h
    have wf := decodeOp_wf op lo hi
    rw [h] at wf
    exact List.contains_iff_mem.1 wf
  · exact fun h => decodeOp_unknown h lo hi

/-- An opcode that has neither no operand byte nor one has two. -/
theorem opLength_eq_three {op : Byte} (h1 : opLength op ≠ 1) (h2 : opLength op ≠ 2) : opLength op = 3 := by
  unfold opLength Instr.length
  rw [encode_decodeOp, if_neg h1, if_neg h2]
  rfl

theorem enc3_word16 (op lo hi : Byte) : enc3 op (word16 hi lo) = [op, lo, hi] := by
  rw [enc3, loByte_word16, hiByte_word16]

/-! ## An instruction and its bytes -/

/-- The bytes `bs` stand for `i`: an opcode, the operand bytes that it has, and the opcode map's answer to them. -/
inductive Encoded (i : Instr) : List Byte → Prop where
  | one {op : Byte} (hop : opLength op = 1) (map : decodeOp op 0 0 = i) : Encoded i [op]
  | two {op lo : Byte} (hop : opLength op = 2) (map : decodeOp op lo 0 = i) : Encoded i [op, lo]
  | three {op lo hi : Byte} (hop : opLength op = 3) (map : decodeOp op lo hi = i) : Encoded i [op, lo, hi]

/-! ### The encoder -/

theorem Encoded.wf {i : Instr} {bs : List Byte} (h : Encoded i bs) : i.wf = true := by
  cases h with
  | one _ map | two _ map | three _ map => rw [← map]; exact decodeOp_wf _ _ _

theorem Encoded.encode_eq {i : Instr} {bs : List Byte} (h : Encoded i bs) : encode i = bs := by
  cases h with
  | one hop hi | two hop hi => rw [← hi, encode_decodeOp, hop]; rfl
  | three hop hi => rw [← hi, encode_decodeOp, hop]; exact enc3_word16 _ _ _

/-- A three-byte opcode whose operand is an address (R202). -/
theorem Encoded.of_enc3 {op : Byte} {i : Addr → Instr} (a : Addr) (hop : opLength op = 3)
    (map : ∀ lo hi, decodeOp op lo hi = i (word16 hi lo)) : Encoded (i a) (enc3 op a) :=
  .three hop ((map _ _).trans (congrArg i (word16_halves a)))

/-- The opcode map answers the encoder's bytes with the instruction, form by form. -/
theorem Encoded.of_encode {i : Instr} (h : i.wf = true) : Encoded i (encode i) := by
  cases i
  case ill op =>
    have unknown : op ∈ unknownOpcodes := List.contains_iff_mem.1 h
    exact .one (Laws.EncodedLength.unknown_opLength op unknown) (decodeOp_unknown unknown 0 0)
  case tax | tay | txa | tya | tsx | txs | inx | iny | dex | dey => exact .one rfl rfl
  case clc | sec | cli | sei | cld | sed | clv | pha | pla | php | plp | rts | rti | nop => exact .one rfl rfl
  case bpl | bmi | bvc | bvs | bcc | bcs | bne | beq | brk => exact .two rfl rfl
  case jsr a => apply Encoded.of_enc3 a rfl fun _ _ => rfl
  case jmp o =>
    cases o
    case abs a | ind a => apply Encoded.of_enc3 a rfl fun _ _ => rfl
  case lda o | adc o | sbc o | and o | ora o | eor o | cmp o | sta o =>
    cases o
    case abs a | absX a | absY a => apply Encoded.of_enc3 a rfl fun _ _ => rfl
    all_goals exact .two rfl rfl
  case ldx o =>
    cases o
    case abs a | absY a => apply Encoded.of_enc3 a rfl fun _ _ => rfl
    all_goals exact .two rfl rfl
  case ldy o | inc o | dec o =>
    cases o
    case abs a | absX a => apply Encoded.of_enc3 a rfl fun _ _ => rfl
    all_goals exact .two rfl rfl
  case stx o | sty o | cpx o | cpy o | bit o =>
    cases o
    case abs a => apply Encoded.of_enc3 a rfl fun _ _ => rfl
    all_goals exact .two rfl rfl
  case asl o | lsr o | rol o | ror o =>
    cases o
    case acc => exact .one rfl rfl
    case abs a | absX a => apply Encoded.of_enc3 a rfl fun _ _ => rfl
    all_goals exact .two rfl rfl

/-! ### The decoder -/

theorem Encoded.decode_eq {i : Instr} {bs : List Byte} (h : Encoded i bs) (rest : List Byte) :
    decode (bs ++ rest) = .ok (i, rest) := by
  cases h with
  | one hop map | two hop map | three hop map => rw [← map]; simp [decode, hop]

theorem Encoded.of_decode {i : Instr} {bs rest : List Byte} (h : decode bs = .ok (i, rest)) :
    ∃ p, Encoded i p ∧ bs = p ++ rest := by
  cases bs with
  | nil => cases h
  | cons op bs =>
    by_cases h1 : opLength op = 1
    · simp only [decode, if_pos h1] at h
      cases h; exact ⟨[op], .one h1 rfl, rfl⟩
    · by_cases h2 : opLength op = 2
      · cases bs with
        | nil => simp [decode, h1] at h
        | cons lo bs =>
          simp only [decode, if_neg h1, if_pos h2] at h
          cases h; exact ⟨[op, lo], .two h2 rfl, rfl⟩
      · match bs with
        | [] | [_] => simp [decode, h1, h2] at h
        | lo :: hi :: bs =>
          simp only [decode, if_neg h1, if_neg h2] at h
          cases h; exact ⟨[op, lo, hi], .three (opLength_eq_three h1 h2) rfl, rfl⟩

/-- Only a list that ends before the operand bytes of its opcode is refused (R231). -/
theorem decode_error_iff (op : Byte) (bs : List Byte) :
    (∃ e, decode (op :: bs) = .error e) ↔ bs.length + 1 < opLength op := by
  by_cases h1 : opLength op = 1
  · simp [decode, h1]
  · by_cases h2 : opLength op = 2
    · cases bs <;> simp [decode, h2]
    · have h3 := opLength_eq_three h1 h2
      match bs with
      | [] | [_] | _ :: _ :: _ => simp [decode, h3]

/-- Settles O1: the encoder's bytes stand for the instruction, and the decoder reads bytes as what they stand for. -/
theorem decodeInvertsEncode : Obligations.DecodeInvertsEncode :=
  fun _ rest h => (Encoded.of_encode h).decode_eq rest

/-- Settles O2: what the decoder has read stands for its answer. -/
theorem encodeInvertsDecode : Obligations.EncodeInvertsDecode := by
  refine ⟨fun bs rest i h => ?_, rfl, decode_error_iff⟩
  obtain ⟨p, encoded, rfl⟩ := Encoded.of_decode h
  exact ⟨encoded.wf, by rw [encoded.encode_eq]⟩

/-- Settles O3: the decoder runs on each of the words. -/
theorem sampleWordsDecode : Obligations.SampleWordsDecode :=
  ⟨rfl, rfl, rfl, rfl, rfl, rfl, rfl, rfl, rfl, rfl⟩

/-! ## A step that runs the bytes at PC (R903, R905) -/

/-- A fetch from plain memory reads the instruction that the bytes at PC stand for, and moves PC past them. -/
theorem Encoded.fetchInstr_eq {i : Instr} {bs : List Byte} {s : State} (h : Encoded i bs)
    (at_pc : Spec.bytesAt s.pc bs s) :
    fetchInstr s = (i, s.setPc (s.pc + BitVec.ofNat 16 bs.length)) := by
  have opcode (k : 0 < bs.length) : peek s.pc s = some bs[0] := by simpa using at_pc 0 k
  cases h with
  | one hop map => rw [← map]; exact fetchInstr_one (opcode (by simp)) hop
  | two hop map => rw [← map]; exact fetchInstr_two (opcode (by simp)) (at_pc 1 (by simp)) hop
  | three hop map => rw [← map]; exact fetchInstr_three (opcode (by simp)) (at_pc 1 (by simp)) (at_pc 2 (by simp)) hop

/-- With nothing pending an iteration starts with no cycle charged. -/
theorem beginIteration_of_pending_none {s : State} (h : s.pending = none) :
    beginIteration s = { s with cost := 0 } := by
  unfold beginIteration service; rw [h]

/-- A step that finds the bytes of `i` at PC has the effect that `exec i` has in every state. -/
theorem stepsBy_encode {i : Instr} {f : State → State} (wf : i.wf = true) (hexec : ∀ s, exec i s = .next (f s)) :
    Spec.stepsBy (encode i, baseCycles i) f := by
  rintro s ⟨running, cycles, pending, at_pc⟩
  have fetched : fetchInstr { s with cost := 0 } =
      (i, { s with cost := 0, pc := s.pc + BitVec.ofNat 16 (encode i).length }) :=
    (Encoded.of_encode wf).fetchInstr_eq at_pc
  rw [step_running running cycles, iteration, beginIteration_of_pending_none pending, fetched]
  simp only [hexec, State.charge, Nat.zero_add]
  rfl

/-! ## The unknown opcodes (R230, R715) -/

/-- The address before `w`, modulo 0x10000. -/
theorem sub_one_eq_ofNat (w : Addr) : w - 1 = BitVec.ofNat 16 (w.toNat + 65535) := by
  rw [BitVec.sub_def, Nat.add_comm]; rfl

theorem exec_ill (op : Byte) (s : State) : exec (.ill op) s = .next
    { s with diag := s.diag ++ [{ opcode := op, addr := BitVec.ofNat 16 (s.pc.toNat + 65535) }] } := by
  rw [← sub_one_eq_ofNat]; rfl

/-- Settles O4: the list is R230's, the opcode map answers `ill` for it alone, and a step does what `exec` does. -/
theorem unknownOpcodesAreOneByteNoOps : Obligations.UnknownOpcodesAreOneByteNoOps := by
  refine ⟨rfl, by decide, decodeOp_eq_ill_iff, exec_ill, fun op unknown => ?_⟩
  exact stepsBy_encode (i := .ill op) (List.contains_iff_mem.2 unknown) (exec_ill op)

end Sys2Proof.Machine

/-!
PROOFS of the family 40_load_store_transfer.md (O10, O11, O12). The parts: the encodings and costs as the spec's rows
give them; the effective address, the page-cross penalty and the operand in the spec's numbers; loads (O10), stores
(O11) and transfers (O12), each one of them by what its `exec` answers and by its row.
-/

namespace Sys2Proof.Machine

/-! ## Rows (R202, R250)

A row of the spec is the encoder's bytes with the base cycles. -/

theorem lo_eq_loByte (w : Addr) : Spec.lo w.toNat = loByte w := rfl

theorem hi_eq_hiByte (w : Addr) : Spec.hi w.toNat = hiByte w := by
  rw [Spec.hi, ← hiByte_toNat, BitVec.ofNat_toNat, BitVec.setWidth_eq]

theorem three_eq_enc3 (op : Nat) (a : Addr) : Spec.three op a = enc3 (BitVec.ofNat 8 op) a := by
  rw [Spec.three, lo_eq_loByte, hi_eq_hiByte, enc3]

/-- What `exec` answers in every state, a step that finds the row's bytes at PC does. -/
theorem completesAs_of_row {i : Instr} {row : List Byte × Nat} {f : State → State} (wf : i.wf = true)
    (hrow : row = (encode i, baseCycles i)) (hexec : ∀ s, exec i s = .next (f s)) : Spec.completesAs i row f :=
  ⟨hexec, hrow ▸ stepsBy_encode wf hexec⟩

theorem loadRow_lda (o : LoadForm) : Spec.loadRow 0xA0 o = (encode (.lda o), baseCycles (.lda o)) := by
  cases o
  case abs a | absX a | absY a => exact congrArg (·, 4) (three_eq_enc3 _ a)
  all_goals rfl

theorem ldxRow_eq (o : LdxForm) : Spec.ldxRow o = (encode (.ldx o), baseCycles (.ldx o)) := by
  cases o
  case abs a | absY a => exact congrArg (·, 4) (three_eq_enc3 _ a)
  all_goals rfl

theorem ldyRow_eq (o : LdyForm) : Spec.ldyRow o = (encode (.ldy o), baseCycles (.ldy o)) := by
  cases o
  case abs a | absX a => exact congrArg (·, 4) (three_eq_enc3 _ a)
  all_goals rfl

theorem staRow_eq (o : StaForm) : Spec.staRow o = (encode (.sta o), baseCycles (.sta o)) := by
  cases o
  case abs a | absX a | absY a => exact congrArg (·, _) (three_eq_enc3 _ a)
  all_goals rfl

theorem stxRow_eq (o : StxForm) : Spec.stxRow o = (encode (.stx o), baseCycles (.stx o)) := by
  cases o
  case abs a => exact congrArg (·, 4) (three_eq_enc3 _ a)
  all_goals rfl

theorem styRow_eq (o : StyForm) : Spec.styRow o = (encode (.sty o), baseCycles (.sty o)) := by
  cases o
  case abs a => exact congrArg (·, 4) (three_eq_enc3 _ a)
  all_goals rfl

/-! ## Operands in numbers (R211-R219, R300, R921) -/

theorem eaAddr_eq (m : Mode) (s : State) : Spec.eaAddr m s = effAddr m s := by
  rw [Spec.eaAddr, ← effAddr_toNat, BitVec.ofNat_toNat, BitVec.setWidth_eq]

/-- Two addresses lie in different pages as the spec counts pages. -/
theorem hiByte_bne (v w : Addr) : (hiByte v != hiByte w) = (v.toNat / 256 != w.toNat / 256) := by
  rw [← hiByte_toNat, ← hiByte_toNat, Bool.eq_iff_iff, bne_iff_ne, bne_iff_ne, Ne, Ne, BitVec.toNat_inj]

/-- Only the indexed sums of 16 bits can leave the page of their base. -/
theorem crosses_eq (m : Mode) (s : State) : Spec.crosses m s = crossed m s := by
  unfold crossed
  cases m with
  | zp | zpX | zpY | abs | indX => exact (bne_self_eq_false _).symm
  | absX a | absY a => rw [hiByte_bne, effAddr_toNat]; rfl
  | indY z => rw [hiByte_bne, effAddr_toNat, baseAddr, zpPointer_toNat]; rfl

theorem operand_eq (o : ReadOperand) (s : State) : Spec.operand o s = readOperand o s := by
  cases o with
  | imm b => rfl
  | mem m => rw [Spec.operand, eaAddr_eq, crosses_eq]; rfl

theorem readOperand_flags (o : ReadOperand) (s : State) : (readOperand o s).2.flags = s.flags :=
  (BusFrame.of_readOperand o s).flags

/-! ## N and Z (R10) -/

theorem nz_eq (r : Byte) (f : Flags) : Spec.nz r f = setNZ r f := by
  have zero : decide (r.toNat = 0) = (r == 0) := by
    rw [Bool.eq_iff_iff, decide_eq_true_iff, beq_iff_eq]; exact BitVec.toNat_inj (y := 0)
  have sign : decide (128 ≤ r.toNat) = r.getLsbD 7 := (BitVec.msb_eq_decide r).symm
  rw [Spec.nz, zero, sign, setNZ]

/-! ## Loads (R301-R303) -/

/-- A load in the spec's vocabulary; the operand read keeps the flags. -/
theorem loadInto_eq (set : Byte → State → State) (o : ReadOperand) (s : State) :
    loadInto set o s =
      (set (Spec.operand o s).1 (Spec.operand o s).2).setFlags (Spec.nz (Spec.operand o s).1 s.flags) := by
  rw [operand_eq, nz_eq, ← readOperand_flags o s, loadInto]

theorem exec_lda (o : LoadForm) (s : State) :
    exec (.lda o) s = .next (Spec.onA (fun _ m f => (m, Spec.nz m f)) (loadOperand o) s) :=
  congrArg _ (loadInto_eq State.setA (loadOperand o) s)

theorem exec_ldx (o : LdxForm) (s : State) : exec (.ldx o) s = .next (Spec.intoX (ldxOperand o) s) :=
  congrArg _ (loadInto_eq State.setX (ldxOperand o) s)

theorem exec_ldy (o : LdyForm) (s : State) : exec (.ldy o) s = .next (Spec.intoY (ldyOperand o) s) :=
  congrArg _ (loadInto_eq State.setY (ldyOperand o) s)

/-- Settles O10: each load by its row and its one operand read. -/
theorem loadsFollowTheRules : Obligations.LoadsFollowTheRules :=
  ⟨fun o => completesAs_of_row rfl (loadRow_lda o) (exec_lda o),
    fun o => completesAs_of_row rfl (ldxRow_eq o) (exec_ldx o),
    fun o => completesAs_of_row rfl (ldyRow_eq o) (exec_ldy o)⟩

/-! ## Stores (R304-R306) -/

theorem writeOperand_eq (m : Mode) (v : Byte) (s : State) : writeOperand m v s = busWrite (Spec.eaAddr m s) v s := by
  rw [eaAddr_eq, writeOperand]

theorem exec_sta (o : StaForm) (s : State) :
    exec (.sta o) s = .next (busWrite (Spec.eaAddr (staMode o) s) s.a s) :=
  congrArg _ (writeOperand_eq (staMode o) s.a s)

theorem exec_stx (o : StxForm) (s : State) :
    exec (.stx o) s = .next (busWrite (Spec.eaAddr (stxMode o) s) s.x s) :=
  congrArg _ (writeOperand_eq (stxMode o) s.x s)

theorem exec_sty (o : StyForm) (s : State) :
    exec (.sty o) s = .next (busWrite (Spec.eaAddr (styMode o) s) s.y s) :=
  congrArg _ (writeOperand_eq (styMode o) s.y s)

/-- Settles O11: each store by its row and its one bus write. -/
theorem storesFollowTheRules : Obligations.StoresFollowTheRules :=
  ⟨fun o => completesAs_of_row rfl (staRow_eq o) (exec_sta o),
    fun o => completesAs_of_row rfl (stxRow_eq o) (exec_stx o),
    fun o => completesAs_of_row rfl (styRow_eq o) (exec_sty o)⟩

/-! ## Transfers (R307-R312) -/

theorem transferInto_eq (set : Byte → State → State) (v : Byte) (s : State) :
    transferInto set v s = (set v s).setFlags (Spec.nz v s.flags) := by
  rw [nz_eq, transferInto]

/-- Settles O12: five transfers with N and Z of the source, and TXS with no flag. -/
theorem transfersFollowTheRules : Obligations.TransfersFollowTheRules :=
  ⟨completesAs_of_row rfl rfl fun s => congrArg _ (transferInto_eq State.setX s.a s),
    completesAs_of_row rfl rfl fun s => congrArg _ (transferInto_eq State.setY s.a s),
    completesAs_of_row rfl rfl fun s => congrArg _ (transferInto_eq State.setA s.x s),
    completesAs_of_row rfl rfl fun s => congrArg _ (transferInto_eq State.setA s.y s),
    completesAs_of_row rfl rfl fun s => congrArg _ (transferInto_eq State.setX s.sp s),
    completesAs_of_row rfl rfl fun _ => rfl⟩

end Sys2Proof.Machine

/-!
PROOFS of the family 41_arithmetic_logic.md (O13-O19). The parts: the rows of the family, in one list; the flag and
byte functions of the model in the spec's arithmetic; the operand read and the read-modify-write they are applied by;
then each obligation, from the row and from what `exec` answers.
-/

namespace Sys2Proof.Machine

/-! ## Rows (R202, R250) -/

/-- The instructions of the family and their rows, as R401-R415 list them. -/
inductive ArithRow : Instr → List Byte × Nat → Prop
  | adc (o : LoadForm) : ArithRow (.adc o) (Spec.loadRow 0x60 o)
  | sbc (o : LoadForm) : ArithRow (.sbc o) (Spec.loadRow 0xE0 o)
  | and (o : LoadForm) : ArithRow (.and o) (Spec.loadRow 0x20 o)
  | ora (o : LoadForm) : ArithRow (.ora o) (Spec.loadRow 0x00 o)
  | eor (o : LoadForm) : ArithRow (.eor o) (Spec.loadRow 0x40 o)
  | cmp (o : LoadForm) : ArithRow (.cmp o) (Spec.loadRow 0xC0 o)
  | cpx (o : CpForm) : ArithRow (.cpx o) (Spec.cpRow 0xE0 o)
  | cpy (o : CpForm) : ArithRow (.cpy o) (Spec.cpRow 0xC0 o)
  | bit (o : BitForm) : ArithRow (.bit o) (Spec.bitRow o)
  | inc (o : IncForm) : ArithRow (.inc o) (Spec.incRow 0xE0 o)
  | dec (o : IncForm) : ArithRow (.dec o) (Spec.incRow 0xC0 o)
  | inx : ArithRow .inx ([0xE8], 2)
  | iny : ArithRow .iny ([0xC8], 2)
  | dex : ArithRow .dex ([0xCA], 2)
  | dey : ArithRow .dey ([0x88], 2)

theorem ArithRow.wf {i : Instr} {row : List Byte × Nat} (h : ArithRow i row) : i.wf = true := by cases h <;> rfl

/-- Each row is the encoder's bytes with the base cycles, form by form. -/
theorem ArithRow.row_eq {i : Instr} {row : List Byte × Nat} (h : ArithRow i row) : row = (encode i, baseCycles i) := by
  cases h with
  | adc o | sbc o | and o | ora o | eor o | cmp o =>
    cases o
    case abs a | absX a | absY a => exact congrArg (·, 4) (three_eq_enc3 _ a)
    all_goals rfl
  | cpx o | cpy o | bit o =>
    cases o
    case abs a => exact congrArg (·, 4) (three_eq_enc3 _ a)
    all_goals rfl
  | inc o | dec o =>
    cases o
    case abs a | absX a => exact congrArg (·, _) (three_eq_enc3 _ a)
    all_goals rfl
  | inx | iny | dex | dey => rfl

theorem ArithRow.completesAs {i : Instr} {row : List Byte × Nat} {f : State → State} (h : ArithRow i row)
    (hexec : ∀ s, exec i s = .next (f s)) : Spec.completesAs i row f :=
  completesAs_of_row h.wf h.row_eq hexec

/-! ## Bits and signs in numbers -/

theorem bitOf_eq (v : Byte) (k : Nat) : Spec.bitOf v k = v.getLsbD k := Nat.testBit_eq_decide_div_mod_eq.symm

/-- Bit 7 is the sign. -/
theorem getLsbD_seven (v : Byte) : v.getLsbD 7 = decide (128 ≤ v.toNat) := BitVec.msb_eq_decide v

theorem toInt_eq_ite (v : Byte) : v.toInt = if 128 ≤ v.toNat then (v.toNat : Int) - 256 else v.toNat := by
  rw [BitVec.toInt_eq_toNat_cond]; split_ifs <;> omega

theorem beq_eq_decide_toNat (v w : Byte) : (v == w) = decide (v.toNat = w.toNat) := by
  rw [Bool.eq_iff_iff, decide_eq_true_iff, beq_iff_eq, BitVec.toNat_inj]

/-! ## The adder (R401, R402) -/

/-- Equal signs of the summands and another sign of the result: exactly then the signed sum leaves -128..127. -/
theorem adc_overflow (a m : Byte) (c : Bool) :
    (a.getLsbD 7 == m.getLsbD 7 && (BitVec.ofNat 8 (adcSum a m c)).getLsbD 7 != a.getLsbD 7) =
      decide (a.toInt + m.toInt + c.toNat < -128 ∨ 127 < a.toInt + m.toInt + c.toNat) := by
  have carry : c.toNat ≤ 1 := c.toNat_le
  simp only [getLsbD_seven, toInt_eq_ite, BitVec.toNat_ofNat, adcSum]
  rw [Bool.eq_iff_iff]
  simp only [Bool.and_eq_true, beq_iff_eq, bne_iff_ne, ne_eq, decide_eq_true_iff, decide_eq_decide]
  split_ifs <;> omega

theorem adc_eq (a m : Byte) (f : Flags) : adc a m f = Spec.add a m f := by
  rw [Spec.add, nz_eq, ← adc_overflow]; rfl

theorem add_not (a m : Byte) (f : Flags) : Spec.add a (~~~m) f = Spec.subtract a m f := by
  have carry : f.c.toNat ≤ 1 := f.c.toNat_le
  have not_m : (~~~m).toNat = 255 - m.toNat := BitVec.toNat_not
  have small := m.isLt
  have result : BitVec.ofNat 8 (a.toNat + (~~~m).toNat + f.c.toNat) =
      BitVec.ofInt 8 ((a.toNat : Int) - m.toNat - (1 - f.c.toNat : Nat)) := by
    apply BitVec.eq_of_toNat_eq
    rw [BitVec.toNat_ofNat, BitVec.toNat_ofInt]
    omega
  have no_borrow : 256 ≤ a.toNat + (~~~m).toNat + f.c.toNat ↔ m.toNat + (1 - f.c.toNat) ≤ a.toNat := by omega
  have signed : a.toInt + (~~~m).toInt + f.c.toNat = a.toInt - m.toInt - (1 - f.c.toNat : Nat) := by
    rw [toInt_eq_ite (~~~m), toInt_eq_ite m]; split_ifs <;> omega
  simp only [Spec.add, Spec.subtract, result, no_borrow, signed]

/-- The complement turns the adder into a subtracter. -/
theorem sbc_eq (a m : Byte) (f : Flags) : sbc a m f = Spec.subtract a m f := by
  rw [← add_not, ← adc_eq, sbc, ← BitVec.xor_allOnes]; rfl

/-! ## Comparison, BIT and steps by one (R406-R415) -/

theorem compare_eq (r m : Byte) (f : Flags) : compare r m f = Spec.compared r m f := by
  have sign : (r - m).getLsbD 7 = decide (128 ≤ (r.toNat + 256 - m.toNat) % 256) := by
    rw [getLsbD_seven, BitVec.toNat_sub, ← Nat.sub_add_comm m.isLt.le, Nat.add_comm]
  rw [Spec.compared, compare, beq_eq_decide_toNat, sign]

theorem bitTest_eq (a m : Byte) (f : Flags) : bitTest a m f = Spec.tested a m f := by
  rw [Spec.tested, bitOf_eq, bitOf_eq, bitTest, beq_eq_decide_toNat]; rfl

theorem incByte_eq (v : Byte) (f : Flags) : incByte v f = Spec.stepped 1 v f := by
  rw [Spec.stepped, nz_eq]; rfl

theorem decByte_eq (v : Byte) (f : Flags) : decByte v f = Spec.stepped 255 v f := by
  have step : v - 1 = BitVec.ofNat 8 (v.toNat + 255) := by rw [BitVec.sub_def, Nat.add_comm]; rfl
  rw [Spec.stepped, nz_eq, ← step, decByte]

theorem bitwise_eq (g : Byte → Byte → Byte) (a m : Byte) (f : Flags) :
    bitwise g a m f = (g a m, Spec.nz (g a m) f) := by
  rw [nz_eq, bitwise]

/-! ## What reads an operand, and what modifies memory (R300, R223) -/

theorem accumulate_eq {g g' : Byte → Byte → Flags → Byte × Flags} (hg : ∀ a m f, g a m f = g' a m f)
    (o : ReadOperand) (s : State) : accumulate g o s = Spec.onA g' o s := by
  have read := BusFrame.of_readOperand o s
  rw [Spec.onA, operand_eq, ← read.a, ← read.flags, ← hg]; rfl

theorem testWith_eq {g : Byte → Byte → Flags → Flags} {r : Byte} {g' : Byte → Flags → Flags}
    (hg : ∀ m f, g r m f = g' m f) (o : ReadOperand) (s : State) : testWith g r o s = Spec.onFlags g' o s := by
  rw [Spec.onFlags, operand_eq, ← readOperand_flags o s, ← hg]; rfl

theorem modifyMemory_eq {g g' : Byte → Flags → Byte × Flags} (hg : ∀ v f, g v f = g' v f) (m : Mode) (s : State) :
    modifyOperand g (.mem m) s = Spec.onMemory g' m s := by
  rw [Spec.onMemory, eaAddr_eq, ← hg, ← busRead_flags (effAddr m s) s]; rfl

/-! ## The obligations -/

/-- Settles O13: the adder is the unbounded and the signed sum. -/
theorem adcAddsWithCarry : Obligations.AdcAddsWithCarry :=
  fun o => (ArithRow.adc o).completesAs fun s => congrArg _ (accumulate_eq adc_eq (loadOperand o) s)

/-- Settles O14: the adder of the complement is the difference. -/
theorem sbcSubtractsWithBorrow : Obligations.SbcSubtractsWithBorrow :=
  fun o => (ArithRow.sbc o).completesAs fun s => congrArg _ (accumulate_eq sbc_eq (loadOperand o) s)

/-- Settles O15: three bitwise operations, with N and Z of the result. -/
theorem logicFollowsTheRules : Obligations.LogicFollowsTheRules :=
  ⟨fun o => (ArithRow.and o).completesAs fun s => congrArg _ (accumulate_eq (bitwise_eq _) (loadOperand o) s),
    fun o => (ArithRow.ora o).completesAs fun s => congrArg _ (accumulate_eq (bitwise_eq _) (loadOperand o) s),
    fun o => (ArithRow.eor o).completesAs fun s => congrArg _ (accumulate_eq (bitwise_eq _) (loadOperand o) s)⟩

/-- Settles O16: one comparison, of A, X or Y. -/
theorem comparesFollowTheRules : Obligations.ComparesFollowTheRules :=
  ⟨fun o => (ArithRow.cmp o).completesAs fun s => congrArg _ (testWith_eq (compare_eq s.a) (loadOperand o) s),
    fun o => (ArithRow.cpx o).completesAs fun s => congrArg _ (testWith_eq (compare_eq s.x) (cpOperand o) s),
    fun o => (ArithRow.cpy o).completesAs fun s => congrArg _ (testWith_eq (compare_eq s.y) (cpOperand o) s)⟩

/-- Settles O17: Z from `A & M`, N and V from bits 7 and 6 of the operand. -/
theorem bitTestsMemoryAgainstA : Obligations.BitTestsMemoryAgainstA :=
  fun o => (ArithRow.bit o).completesAs fun s => congrArg _ (testWith_eq (bitTest_eq s.a) (bitOperand o) s)

/-- Settles O18: one read and one write of the effective address, the byte stepped by 1 or by 255 modulo 256. -/
theorem memoryIncrementsFollowTheRules : Obligations.MemoryIncrementsFollowTheRules :=
  ⟨fun o => (ArithRow.inc o).completesAs fun s => congrArg _ (modifyMemory_eq incByte_eq (incMode o) s),
    fun o => (ArithRow.dec o).completesAs fun s => congrArg _ (modifyMemory_eq decByte_eq (incMode o) s)⟩

/-- Settles O19: X or Y stepped by 1 or by 255 modulo 256. -/
theorem registerIncrementsFollowTheRules : Obligations.RegisterIncrementsFollowTheRules :=
  ⟨ArithRow.inx.completesAs fun s => by rw [← incByte_eq]; rfl,
    ArithRow.iny.completesAs fun s => by rw [← incByte_eq]; rfl,
    ArithRow.dex.completesAs fun s => by rw [← decByte_eq]; rfl,
    ArithRow.dey.completesAs fun s => by rw [← decByte_eq]; rfl⟩

end Sys2Proof.Machine

/-!
PROOFS of the family 42_shift_rotate.md (O20). The parts: the shifted and rotated byte and the bit shifted out, in
numbers; the accumulator or the memory byte they are applied to; the four instructions, in one list, by row and by
what `exec` answers.
-/

namespace Sys2Proof.Machine

/-! ## Shifts and rotations in numbers (R501-R504) -/

theorem getLsbD_zero (v : Byte) : v.getLsbD 0 = decide (v.toNat % 2 = 1) := by
  rw [← bitOf_eq, Spec.bitOf, pow_zero, Nat.div_one]

theorem shiftLeft_one_eq (v : Byte) : v <<< 1 = BitVec.ofNat 8 (2 * v.toNat) :=
  BitVec.eq_of_toNat_eq <| by rw [BitVec.toNat_shiftLeft, Nat.shiftLeft_eq, BitVec.toNat_ofNat, Nat.mul_comm, pow_one]

theorem ushiftRight_one_eq (v : Byte) : v >>> 1 = BitVec.ofNat 8 (v.toNat / 2) := by
  rw [← Nat.shiftRight_one, ← BitVec.toNat_ushiftRight, BitVec.ofNat_toNat, BitVec.setWidth_eq]

theorem flagBit_zero_eq (c : Bool) : flagBit c 0 = BitVec.ofNat 8 c.toNat := by cases c <;> rfl

theorem flagBit_seven_eq (c : Bool) : flagBit c 7 = BitVec.ofNat 8 (128 * c.toNat) := by cases c <;> rfl

/-- The carry enters bit 0, which the shift left empty: the two summands share no bit. -/
theorem rotateLeft_eq (v : Byte) (c : Bool) : (v <<< 1) ||| flagBit c 0 = BitVec.ofNat 8 (2 * v.toNat + c.toNat) := by
  have carry : c.toNat < 2 ^ 1 := c.toNat_lt
  rw [shiftLeft_one_eq, flagBit_zero_eq, ← BitVec.ofNat_or, ← pow_one 2, ← Nat.two_pow_add_eq_or_of_lt carry]

/-- The carry enters bit 7, above every bit of the half. -/
theorem rotateRight_eq (v : Byte) (c : Bool) :
    flagBit c 7 ||| (v >>> 1) = BitVec.ofNat 8 (128 * c.toNat + v.toNat / 2) := by
  have half : v.toNat / 2 < 2 ^ 7 := by omega
  rw [ushiftRight_one_eq, flagBit_seven_eq, ← BitVec.ofNat_or, ← Nat.two_pow_add_eq_or_of_lt half]

theorem aslByte_eq (v : Byte) (f : Flags) : aslByte v f = Spec.shiftedLeft v f := by
  rw [aslByte, shiftLeft_one_eq, getLsbD_seven, ← nz_eq, Spec.shiftedLeft]

theorem lsrByte_eq (v : Byte) (f : Flags) : lsrByte v f = Spec.shiftedRight v f := by
  rw [lsrByte, ushiftRight_one_eq, getLsbD_zero, ← nz_eq, Spec.shiftedRight]

theorem rolByte_eq (v : Byte) (f : Flags) : rolByte v f = Spec.rotatedLeft v f := by
  rw [rolByte, rotateLeft_eq, getLsbD_seven, ← nz_eq, Spec.rotatedLeft]

theorem rorByte_eq (v : Byte) (f : Flags) : rorByte v f = Spec.rotatedRight v f := by
  rw [rorByte, rotateRight_eq, getLsbD_zero, ← nz_eq, Spec.rotatedRight]

/-! ## The place a shift modifies (R223) -/

/-- A byte function `g` with its flags, applied to A, or to the byte at the effective address. -/
def onShifted (g : Byte → Flags → Byte × Flags) (o : ShiftForm) (s : State) : State :=
  match Spec.shiftMode o with
  | none => { s with a := (g s.a s.flags).1, flags := (g s.a s.flags).2 }
  | some m => Spec.onMemory g m s

theorem modifyShifted_eq {g g' : Byte → Flags → Byte × Flags} (hg : ∀ v f, g v f = g' v f) (o : ShiftForm)
    (s : State) : modifyOperand g (shiftOperand o) s = onShifted g' o s := by
  cases o with
  | acc => obtain rfl : g = g' := funext₂ hg; rfl
  | zp z => exact modifyMemory_eq hg (.zp z) s
  | zpX z => exact modifyMemory_eq hg (.zpX z) s
  | abs a => exact modifyMemory_eq hg (.abs a) s
  | absX a => exact modifyMemory_eq hg (.absX a) s

/-! ## The four instructions -/

/-- The instructions of the family: base opcode, the model's byte function and the spec's. -/
inductive ShiftInstr (o : ShiftForm) :
    Instr → Nat → (Byte → Flags → Byte × Flags) → (Byte → Flags → Byte × Flags) → Prop
  | asl : ShiftInstr o (.asl o) 0x00 aslByte Spec.shiftedLeft
  | lsr : ShiftInstr o (.lsr o) 0x40 lsrByte Spec.shiftedRight
  | rol : ShiftInstr o (.rol o) 0x20 rolByte Spec.rotatedLeft
  | ror : ShiftInstr o (.ror o) 0x60 rorByte Spec.rotatedRight

namespace ShiftInstr

variable {o : ShiftForm} {i : Instr} {base : Nat} {g g' : Byte → Flags → Byte × Flags}

theorem wf (h : ShiftInstr o i base g g') : i.wf = true := by cases h <;> rfl

/-- Each row is the encoder's bytes with the base cycles, form by form (R202, R250). -/
theorem row_eq (h : ShiftInstr o i base g g') : Spec.shiftRow base o = (encode i, baseCycles i) := by
  cases o
  case abs a | absX a => cases h <;> exact congrArg (·, _) (three_eq_enc3 _ a)
  all_goals cases h <;> rfl

theorem byte_eq (h : ShiftInstr o i base g g') : ∀ v f, g v f = g' v f := by
  cases h with
  | asl => exact aslByte_eq
  | lsr => exact lsrByte_eq
  | rol => exact rolByte_eq
  | ror => exact rorByte_eq

theorem exec_eq (h : ShiftInstr o i base g g') (s : State) :
    exec i s = .next (modifyOperand g (shiftOperand o) s) := by cases h <;> rfl

theorem completesAs (h : ShiftInstr o i base g g') : Spec.completesAs i (Spec.shiftRow base o) (onShifted g' o) :=
  completesAs_of_row h.wf h.row_eq fun s => (h.exec_eq s).trans (congrArg _ (modifyShifted_eq h.byte_eq o s))

end ShiftInstr

/-- Settles O20: four byte functions, on A or on one read and one write of memory. -/
theorem shiftsFollowTheRules : Obligations.ShiftsFollowTheRules :=
  fun _ => ⟨ShiftInstr.asl.completesAs, ShiftInstr.lsr.completesAs, ShiftInstr.rol.completesAs,
    ShiftInstr.ror.completesAs⟩

end Sys2Proof.Machine

/-!
PROOFS of the family 43_control_transfer.md (O21, O22, O23, O27). The parts: the branches (O21), in one list, by row,
condition and what `exec` answers; the jumps (O22) through a pointer in numbers; the stack in numbers, for JSR and RTS
(O23); then pushes pulled back (O27), from one byte, one word and the entry's three bytes up to the instructions.
-/

namespace Sys2Proof.Machine

/-! ## Branches (R600-R608, R220, R921) -/

/-- The target is the signed sum modulo 0x10000. -/
theorem branchTarget_eq (pc : Addr) (off : Byte) : branchTarget pc off = BitVec.ofInt 16 (pc.toNat + off.toInt) := by
  rw [BitVec.ofInt_add, BitVec.ofInt_natCast, BitVec.ofNat_toNat, BitVec.setWidth_eq]; rfl

theorem branchPenalty_eq (p : Params) (pc target : Addr) : branchPenalty p pc target =
    if p.penalties = .nmos then (if pc.toNat / 256 = target.toNat / 256 then 1 else 2) else 0 := by
  rw [branchPenalty, hiByte_bne]
  by_cases same : pc.toNat / 256 = target.toNat / 256
  · rw [if_pos same, same, bne_self_eq_false, if_neg Bool.false_ne_true]
  · rw [if_neg same, if_pos (bne_iff_ne.2 same)]

theorem branchIf_eq (cond : Bool) (off : Byte) (s : State) : branchIf cond off s = Spec.branched cond off s := by
  cases cond with
  | false => rfl
  | true =>
    simp only [Spec.branched, ← branchTarget_eq, ← branchPenalty_eq]
    rfl

/-- The branches with their opcodes and the conditions on the flags. -/
inductive BranchInstr (off : Byte) : Instr → Nat → (Flags → Bool) → Prop
  | bpl : BranchInstr off (.bpl off) 0x10 (fun f => !f.n)
  | bmi : BranchInstr off (.bmi off) 0x30 (fun f => f.n)
  | bvc : BranchInstr off (.bvc off) 0x50 (fun f => !f.v)
  | bvs : BranchInstr off (.bvs off) 0x70 (fun f => f.v)
  | bcc : BranchInstr off (.bcc off) 0x90 (fun f => !f.c)
  | bcs : BranchInstr off (.bcs off) 0xB0 (fun f => f.c)
  | bne : BranchInstr off (.bne off) 0xD0 (fun f => !f.z)
  | beq : BranchInstr off (.beq off) 0xF0 (fun f => f.z)

namespace BranchInstr

variable {off : Byte} {i : Instr} {op : Nat} {cond : Flags → Bool}

theorem wf (h : BranchInstr off i op cond) : i.wf = true := by cases h <;> rfl

theorem row_eq (h : BranchInstr off i op cond) : (Spec.two op off, 2) = (encode i, baseCycles i) := by cases h <;> rfl

theorem exec_eq (h : BranchInstr off i op cond) (s : State) : exec i s = .next (branchIf (cond s.flags) off s) := by
  cases h <;> rfl

theorem completesAs (h : BranchInstr off i op cond) :
    Spec.completesAs i (Spec.two op off, 2) (fun s => Spec.branched (cond s.flags) off s) :=
  completesAs_of_row h.wf h.row_eq fun s => (h.exec_eq s).trans (congrArg _ (branchIf_eq _ off s))

end BranchInstr

/-- Settles O21: one branch, under eight conditions. -/
theorem branchesFollowTheRules : Obligations.BranchesFollowTheRules :=
  fun _ => ⟨BranchInstr.bpl.completesAs, BranchInstr.bmi.completesAs, BranchInstr.bvc.completesAs,
    BranchInstr.bvs.completesAs, BranchInstr.bcc.completesAs, BranchInstr.bcs.completesAs,
    BranchInstr.bne.completesAs, BranchInstr.beq.completesAs⟩

/-! ## Jumps (R609, R217) -/

theorem word_eq (h l : Byte) : Spec.word h l = word16 h l := by
  rw [Spec.word, ← word16_toNat, BitVec.ofNat_toNat, BitVec.setWidth_eq]

/-- The pointer's high byte lies at the next address modulo 256 in the pointer's page. -/
theorem pointerHigh_eq (ptr : Addr) :
    pointerHigh ptr = BitVec.ofNat 16 (ptr.toNat / 256 * 256 + (ptr.toNat + 1) % 256) := by
  have page : ptr.toNat / 256 < 256 := by have := ptr.isLt; omega
  apply BitVec.eq_of_toNat_eq
  rw [pointerHigh, word16_toNat, BitVec.toNat_add, hiByte_toNat, loByte_toNat, BitVec.toNat_ofNat]
  change 256 * (ptr.toNat / 256) + (ptr.toNat % 256 + 1) % 256 = _
  omega

/-- Settles O22: PC from the operand, or from two bus reads in the pointer's page. -/
theorem jumpsFollowTheRules : Obligations.JumpsFollowTheRules := by
  refine ⟨fun a => ?_, fun ptr => ?_⟩
  · exact completesAs_of_row rfl (congrArg (·, 3) (three_eq_enc3 _ a)) fun _ => rfl
  · refine completesAs_of_row rfl (congrArg (·, 5) (three_eq_enc3 _ ptr)) fun s => ?_
    simp only [← pointerHigh_eq, word_eq]
    exact exec_jmpInd ptr s

/-! ## The stack in numbers (R51, R610, R611) -/

/-- The stack byte `k` places above S. -/
theorem slot_add (s : State) (k : Nat) : 0x100 + (s.sp + BitVec.ofNat 8 k).toNat = Spec.slot s k := by
  rw [Spec.slot, BitVec.toNat_add, BitVec.toNat_ofNat, Nat.add_mod_mod]

theorem push16_eq_slots (w : Addr) (s : State) :
    push16 w s =
      { s with
        ram := (s.ram.write (Spec.slot s 0) (Spec.hi w.toNat)).write (Spec.slot s 255) (Spec.lo w.toNat)
        sp := BitVec.ofNat 8 (s.sp.toNat + 254) } := by
  have sp : s.sp - 2 = BitVec.ofNat 8 (s.sp.toNat + 254) := by rw [BitVec.sub_def, Nat.add_comm]; rfl
  rw [push16_eq, slot_zero, slot_255, sp, ← hi_eq_hiByte, ← lo_eq_loByte]

theorem pull16_eq_slots (s : State) :
    pull16 s = (Spec.word (Spec.pulled s 2) (Spec.pulled s 1), { s with sp := BitVec.ofNat 8 (s.sp.toNat + 2) }) := by
  rw [pull16_eq, word_eq, Spec.pulled, Spec.pulled, ← slot_add, ← slot_add]; rfl

theorem exec_jsr (a : Addr) (s : State) : exec (.jsr a) s = .next ((push16 (s.pc - 1) s).setPc a) := rfl

/-- Settles O23: JSR pushes PC - 1, RTS adds the one back to what it pulls. -/
theorem subroutineCallAndReturn : Obligations.SubroutineCallAndReturn := by
  refine ⟨fun a => ?_, ?_⟩
  · refine completesAs_of_row rfl (congrArg (·, 6) (three_eq_enc3 _ a)) fun s => ?_
    have ret : (s.pc - 1).toNat = (s.pc.toNat + 65535) % 65536 := by rw [sub_one_eq_ofNat, BitVec.toNat_ofNat]
    rw [exec_jsr, push16_eq_slots, ret, State.setPc]
  · refine completesAs_of_row rfl rfl fun s => ?_
    rw [exec_rts, pull16_eq_slots, BitVec.ofNat_add (256 * _ + _) 1]; rfl

/-! ## Pushes pulled back (R820, R821) -/

/-- Different values of S name different stack bytes. -/
theorem slot_injective : Function.Injective fun sp : Byte => 0x100 + sp.toNat :=
  fun _ _ h => BitVec.eq_of_toNat_eq (Nat.add_left_cancel h)

/-- A stack byte after a push of another: S says whether it is the one pushed. -/
theorem read_write_slot (m : Memory) (sp sp' : Byte) (v : Byte) :
    Memory.read (m.write (0x100 + sp.toNat) v) (0x100 + sp'.toNat) =
      if sp' = sp then v else Memory.read m (0x100 + sp'.toNat) := by
  rw [Memory.read_write]
  exact if_congr slot_injective.eq_iff rfl rfl

theorem pull8_push8 (v : Byte) (s : State) : pull8 (push8 v s) = (v, { s with ram := (push8 v s).ram }) := by
  rw [pull8_eq, push8_eq]
  simp only [BitVec.sub_add_cancel, read_write_slot, if_true]

/-- The low byte comes back first; the high byte is not overwritten by it. -/
theorem pull16_push16 (w : Addr) (s : State) : pull16 (push16 w s) = (w, { s with ram := (push16 w s).ram }) := by
  have low : s.sp - 2 + 1 = s.sp - 1 := by bv_omega
  have high_ne_low : s.sp ≠ s.sp - 1 := by bv_omega
  rw [pull16_eq, push16_eq]
  simp only [BitVec.sub_add_cancel, if_true, if_false, word16_halves, read_write_slot, low, high_ne_low]

theorem getLsbD_flagBit (c : Bool) (k j : Nat) :
    (flagBit c k).getLsbD j = (c && (decide (k < 8) && decide (k = j))) := by
  cases c with
  | false => simp [flagBit]
  | true => rw [flagBit, if_pos rfl, ← BitVec.twoPow_eq, BitVec.getLsbD_twoPow, Bool.true_and]

/-- The status byte holds every flag, and the pushed bit 4 in B's place (R10, R54). -/
theorem unpackP_packP (b : Bool) (f : Flags) : unpackP (packP b f) = { f with b := b } := by
  simp [unpackP, packP, getLsbD_flagBit, -BitVec.getLsbD_eq_getElem]

/-- The status byte comes back first, then PC's low and high byte; none of the three overwrites another. -/
theorem returnFromInterrupt_takeInterrupt (k : Entry) (s : State) :
    returnFromInterrupt (takeInterrupt k s) =
      { s with ram := (takeInterrupt k s).ram, flags := { s.flags with b := entryBreak k } } := by
  have status : s.sp - 3 + 1 = s.sp - 2 := by bv_omega
  have low : s.sp - 3 + 2 = s.sp - 1 := by bv_omega
  have low_ne_status : s.sp - 1 ≠ s.sp - 2 := by bv_omega
  have high_ne_status : s.sp ≠ s.sp - 2 := by bv_omega
  have high_ne_low : s.sp ≠ s.sp - 1 := by bv_omega
  rw [returnFromInterrupt_eq, takeInterrupt_eq]
  simp only [BitVec.sub_add_cancel, if_true, if_false, word16_halves, read_write_slot, unpackP_packP, status, low,
    low_ne_status, high_ne_status, high_ne_low]

/-- Of the three entries only BRK pushes bit 4 (R820). -/
theorem entryBreak_eq (k : Entry) : entryBreak k = decide (k = .brk) := by cases k <;> rfl

theorem pull16_setPc (w : Addr) (s : State) : pull16 (s.setPc w) = ((pull16 s).1, (pull16 s).2.setPc w) := by
  rw [pull16_eq, pull16_eq]; rfl

/-- What JSR leaves, RTS takes back: PC after the JSR, whatever the target was. -/
theorem rts_jsr (a : Addr) (s : State) :
    exec .rts ((push16 (s.pc - 1) s).setPc a) = .next { s with ram := (push16 (s.pc - 1) s).ram } := by
  rw [exec_rts, pull16_setPc, pull16_push16, BitVec.sub_add_cancel]; rfl

/-- Settles O27: what JSR, an entry, PHP and PHA push comes back whole, and nothing but RAM and the flags differs. -/
theorem whatIsPushedIsPulledBack : Obligations.WhatIsPushedIsPulledBack := by
  refine ⟨fun a s => ⟨_, _, exec_jsr a s, rts_jsr a s, rfl⟩,
    fun p s => ⟨_, _, rfl, rfl, returnFromInterrupt_takeInterrupt .brk s⟩,
    fun k s => ?_, fun s => ⟨_, _, rfl, exec_plp _, ?_⟩, fun s => ⟨_, _, rfl, exec_pla _, ?_⟩⟩
  · rw [← entryBreak_eq, ← returnFromInterrupt_takeInterrupt]; rfl
  · rw [pull8_push8, unpackP_packP]; rfl
  · rw [pull8_push8, transferInto_eq]; rfl

end Sys2Proof.Machine

/-!
PROOFS of the family 44_stack_flags_system.md (O24, O25, O26). The parts: the status byte in numbers; one byte pushed or
pulled, for PHA, PHP, PLA and PLP (O24); the flag instructions and NOP (O25); the interrupt entry and the return from it
in numbers, for BRK and RTI (O26).
-/

namespace Sys2Proof.Machine

/-! ## The status byte in numbers (R10, R54) -/

/-- The flags lie in different bits, so that their "or" is the sum; checked for all settings of the flags. -/
theorem packP_eq_status (b : Bool) (f : Flags) : packP b f = BitVec.ofNat 8 (Spec.status b f) := by
  obtain ⟨n, v, fb, d, i, z, c⟩ := f
  revert b n v fb d i z c
  decide

theorem unpacked_eq (p : Byte) : Spec.unpacked p = unpackP p := by
  simp only [Spec.unpacked, bitOf_eq, unpackP]

/-! ## One byte pushed or pulled (R701-R704) -/

/-- Lowering S by `k` is raising it by the rest of 256. -/
theorem sub_eq_ofNat (sp k : Byte) : sp - k = BitVec.ofNat 8 (sp.toNat + (256 - k.toNat)) := by
  rw [BitVec.sub_def, Nat.add_comm]

theorem push8_eq_slots (v : Byte) (s : State) :
    push8 v s = { s with ram := s.ram.write (Spec.slot s 0) v, sp := BitVec.ofNat 8 (s.sp.toNat + 255) } := by
  rw [push8_eq, slot_zero, sub_eq_ofNat]; rfl

theorem pull8_eq_slots (s : State) :
    pull8 s = (Spec.pulled s 1, { s with sp := BitVec.ofNat 8 (s.sp.toNat + 1) }) := by
  rw [pull8_eq, Spec.pulled, ← slot_add]; rfl

/-- Settles O24: A or the status byte, pushed or pulled. -/
theorem stackInstructionsFollowTheRules : Obligations.StackInstructionsFollowTheRules := by
  refine ⟨completesAs_of_row rfl rfl fun s => ?pha, completesAs_of_row rfl rfl fun s => ?php,
    completesAs_of_row rfl rfl fun s => ?pla, completesAs_of_row rfl rfl fun s => ?plp⟩
  case pha => rw [← push8_eq_slots]; rfl
  case php => rw [← packP_eq_status, ← push8_eq_slots]; rfl
  case pla => rw [exec_pla, pull8_eq_slots, transferInto_eq]; rfl
  case plp => rw [exec_plp, pull8_eq_slots, ← unpacked_eq]; rfl

/-! ## Flag instructions and NOP (R705-R711, R714) -/

/-- Settles O25: each is one update of the flags, or none. -/
theorem flagInstructionsWriteOneFlag : Obligations.FlagInstructionsWriteOneFlag := by
  refine ⟨?clc, ?sec, ?cli, ?sei, ?cld, ?sed, ?clv, ?nop⟩
  all_goals exact completesAs_of_row rfl rfl fun _ => rfl

/-! ## The interrupt entry and the return from it (R712, R713, R820) -/

/-- Each of the three entries is the spec's, by its pushed bit 4 and its vector. -/
theorem takeInterrupt_eq_entered (k : Entry) (s : State) :
    takeInterrupt k s = Spec.entered (entryBreak k) (entryVector k) s := by
  rw [takeInterrupt_eq, slot_zero, slot_255, slot_254, sub_eq_ofNat, packP_eq_status, ← word_eq, ← hi_eq_hiByte,
    ← lo_eq_loByte]
  rfl

theorem returnFromInterrupt_eq_slots (s : State) :
    returnFromInterrupt s =
      { s with
        flags := Spec.unpacked (Spec.pulled s 1), pc := Spec.word (Spec.pulled s 3) (Spec.pulled s 2)
        sp := BitVec.ofNat 8 (s.sp.toNat + 3) } := by
  rw [returnFromInterrupt_eq, word_eq, unpacked_eq, Spec.pulled, Spec.pulled, Spec.pulled, ← slot_add, ← slot_add,
    ← slot_add]
  rfl

/-- Settles O26: BRK is the entry that pushes bit 4 set, RTI the return. -/
theorem brkAndRtiFollowTheRules : Obligations.BrkAndRtiFollowTheRules :=
  ⟨fun _ => completesAs_of_row rfl rfl fun s => congrArg Host.Outcome.next (takeInterrupt_eq_entered .brk s),
    completesAs_of_row rfl rfl fun s => congrArg Host.Outcome.next (returnFromInterrupt_eq_slots s)⟩

end Sys2Proof.Machine

/-!
PROOFS of the family 60_exceptions.md (O28, O29, O31, O33). The parts: the service of each request, RESET in closed form
(O28); the pending slot through an instruction and through service; every step completes (O33), and with it an
iteration is one instruction after service (O29); power-on (O31), from the header's numbers, the variant they select,
and the state `reset()` leaves.
-/

namespace Sys2Proof.Machine

/-! ## The service of RESET (R901) -/

theorem busWrite_stackAddr (sp v : Byte) (s : State) :
    busWrite (stackAddr sp) v s = { s with ram := s.ram.write (0x100 + sp.toNat) v } := by
  have index : ramIndex (stackAddr sp) = 0x100 + sp.toNat := by
    have := sp.isLt
    unfold ramIndex; rw [stackAddr_toNat]; omega
  rw [busWrite_ram v s (stackAddr_lt sp), index]

theorem drawStackByte_eq (sp : Byte) (s : State) :
    drawStackByte sp s =
      { s with ram := s.ram.write (0x100 + sp.toNat) (Config.freeByte s.draws), draws := s.draws + 1 } :=
  busWrite_stackAddr sp _ _

/-- The reset sequence, and three draws more into the top of the stack page. -/
theorem servicedReset_eq (s : State) :
    servicedReset s =
      { s with
        pc := Spec.vectorWord 0xFFFC s, sp := 0xFF
        a := Config.freeByte s.draws, x := Config.freeByte (s.draws + 1), y := Config.freeByte (s.draws + 2)
        flags := { unpackP (Config.freeByte (s.draws + 3)) with i := true }
        ram := ((s.ram.write 0x1FD (Config.freeByte (s.draws + 4))).write 0x1FE
          (Config.freeByte (s.draws + 5))).write 0x1FF (Config.freeByte (s.draws + 6))
        draws := s.draws + 7 } := by
  rw [servicedReset, drawStackByte_eq, drawStackByte_eq, drawStackByte_eq, resetSequence_eq, Spec.vectorWord, word_eq]
  rfl

/-! ## Interrupt service (R815) -/

section

variable {s : State}

theorem service_none (h : s.pending = none) : service s = s := by unfold service; rw [h]

theorem service_nmi (h : s.pending = some .nmi) : service s = (takeInterrupt .nmi (s.setPending none)).charge 7 := by
  unfold service; rw [h]

theorem service_reset (h : s.pending = some .reset) : service s = (servicedReset (s.setPending none)).charge 7 := by
  unfold service; rw [h]

theorem service_irq (h : s.pending = some .irq) (hi : s.flags.i = false) :
    service s = (takeInterrupt .irq (s.setPending none)).charge 7 := by
  unfold service; rw [h, hi]; rfl

theorem service_maskedIrq_drop (h : s.pending = some .irq) (hi : s.flags.i = true) (hp : s.params.maskedIrq = .drop) :
    service s = s.setPending none := by
  unfold service; rw [h, hi, hp]; rfl

theorem service_maskedIrq_retain (h : s.pending = some .irq) (hi : s.flags.i = true)
    (hp : s.params.maskedIrq = .retain) : service s = s := by
  unfold service; rw [h, hi, hp]; rfl

end

/-- Settles O28: the entries are the spec's (`takeInterrupt_eq_entered`), and the slot alone selects the service. -/
theorem serviceTakesThePendingRequest : Obligations.ServiceTakesThePendingRequest := by
  have entry := takeInterrupt_eq_entered
  refine ⟨fun s => ⟨entry .nmi s, entry .irq s, entry .brk s⟩, fun s => ⟨service_none, fun h => ?nmi,
    fun h hi => ?irq, service_maskedIrq_drop, service_maskedIrq_retain, fun h => ?reset⟩⟩
  case nmi => rw [service_nmi h, entry]; rfl
  case irq => rw [service_irq h hi, entry]; rfl
  case reset => rw [service_reset h, servicedReset_eq]; exact ⟨_, _, _, _, _, _, _, _, rfl⟩

/-! ## The pending slot (R61, R810, R815) -/

theorem StoresNothing.pending {s t : State} (h : StoresNothing s t) : t.pending = s.pending := by rw [h]

theorem Stores.pending {l : List Nat} {s t : State} (h : Stores l s t) : t.pending = s.pending := by
  cases h with
  | none _ h => exact h.pending
  | bus m v u _ before _ after => rw [after.pending, busWrite_pending, before.pending]
  | push ram _ _ h => exact h.pending

/-- From the stores of the instruction (`exec_stores`); `ill` changes the log only. -/
theorem exec_pending {i : Instr} {s t : State} (h : exec i s = .next t) : t.pending = s.pending := by
  obtain ⟨op, -, rfl⟩ | stores := exec_stores h
  · rfl
  · exact stores.pending

@[simp] theorem takeInterrupt_pending (k : Entry) (s : State) : (takeInterrupt k s).pending = s.pending := by
  rw [takeInterrupt_eq]

@[simp] theorem servicedReset_pending (s : State) : (servicedReset s).pending = s.pending := by rw [servicedReset_eq]

/-- Service leaves the slot as it was or empty. -/
theorem service_pending (s : State) : (service s).pending = s.pending ∨ (service s).pending = none := by
  cases hp : s.pending with
  | none => rw [service_none hp]; exact .inr hp
  | some k =>
    cases k with
    | nmi => right; rw [service_nmi hp]; simp
    | reset => right; rw [service_reset hp]; simp
    | irq =>
      cases hi : s.flags.i with
      | false => right; rw [service_irq hp hi]; simp
      | true =>
        cases policy : s.params.maskedIrq with
        | drop => rw [service_maskedIrq_drop hp hi policy]; exact .inr rfl
        | retain => rw [service_maskedIrq_retain hp hi policy]; exact .inl hp

/-! ## An iteration (R903) -/

/-- The state in which an iteration executes: past service and the fetch, the base cost charged. -/
def executing (s : State) : State :=
  (fetchInstr (beginIteration s)).2.charge (baseCycles (fetchInstr (beginIteration s)).1)

theorem executing_pending (s : State) : (executing s).pending = (beginIteration s).pending :=
  (BusFrame.of_fetchInstr (beginIteration s)).pending

/-! ## Every step completes (R801, R112) -/

/-- No arm of `exec` ends in a fault or a refusal; for JMP the operand form decides which jump it is. -/
theorem exec_completes (i : Instr) (s : State) : ∃ t, exec i s = .next t := by
  cases i
  case jmp o => cases o <;> exact ⟨_, rfl⟩
  all_goals exact ⟨_, rfl⟩

/-- An iteration executes one instruction, which answers a state, and settles it. -/
theorem iteration_completes (s : State) :
    ∃ u, exec (fetchInstr (beginIteration s)).1 (executing s) = .next u ∧ iteration s = .next (settle u) := by
  obtain ⟨u, h⟩ := exec_completes (fetchInstr (beginIteration s)).1 (executing s)
  refine ⟨u, h, ?_⟩
  rw [executing] at h
  unfold iteration; dsimp only; rw [h]

theorem step_completes (s : State) : ∃ t, step s = .next t := by
  cases phase : s.frame.phase with
  | lineStart => exact ⟨_, step_lineStart phase⟩
  | ended => exact ⟨_, step_ended phase⟩
  | running =>
    by_cases cycles : 0 < s.remaining
    · obtain ⟨u, -, h⟩ := iteration_completes s
      exact ⟨_, (step_running phase cycles).trans h⟩
    · exact ⟨_, step_exhausted phase (Int.not_lt.1 cycles)⟩

/-- Settles O33: instruction by instruction, and phase by phase of the frame driver. -/
theorem everyStepCompletes : Obligations.EveryStepCompletes := ⟨exec_completes, step_completes⟩

/-- Settles O29: within an iteration only service touches the slot. -/
theorem instructionsMakeNoRequest : Obligations.InstructionsMakeNoRequest := by
  refine ⟨fun _ _ _ => exec_pending, fun s t running cycles h => ?_⟩
  obtain ⟨u, executed, answer⟩ := iteration_completes s
  obtain rfl : settle u = t := by rw [step_running running cycles, answer] at h; exact Host.Outcome.next.inj h
  have slot : (settle u).pending = (beginIteration s).pending := (exec_pending executed).trans (executing_pending s)
  rw [slot]
  exact service_pending { s with cost := 0 }

/-! ## The header (R1330, R1332)

The statement gives the mapper number by division, the model by bits. -/

theorem Image.mapperNumber_eq (m : Image) :
    m.mapperNumber = (m.byte 7).toNat / 16 * 16 + (m.byte 6).toNat / 16 := by
  have high : ∀ b : Byte, (b &&& (0xF0 : Nat)).toNat = (b.toNat / 16) <<< 4 := by decide
  have low : (m.byte 6).toNat / 16 < 2 ^ 4 := by have := (m.byte 6).isLt; omega
  rw [Image.mapperNumber, BitVec.toNat_or, high, BitVec.toNat_ushiftRight, Nat.shiftRight_eq_div_pow,
    ← Nat.shiftLeft_add_eq_or_of_lt low, Nat.shiftLeft_eq]

/-- The header's cartridge, with the flags of byte 6 by division. -/
theorem Image.cartridge_eq (m : Image) :
    m.cartridge =
      { prgPages := (m.byte 4).toNat, chrPages := (m.byte 5).toNat, mirrorV := Spec.bitOf (m.byte 6) 0
        fourScreen := Spec.bitOf (m.byte 6) 3, hasSram := Spec.bitOf (m.byte 6) 1, prg := m.prg, chr := m.chr } := by
  simp only [bitOf_eq]; rfl

/-- The registers at power-on of the mapper numbers 0 to 3 (R1332, R1340). -/
def powerOnRegs (n : Nat) : MapperRegs :=
  if n = 0 then .fixedBank
  else if n = 1 then .shiftReg { shift := 0, count := 0, control := 0x0C, chr0 := 0, chr1 := 0, prg := 0 }
  else if n = 2 then .prgBankSelect 0
  else .chrBankSelect 0

theorem variantOf_eq_some {n : Nat} (h : n ≤ 3) : variantOf n = some (powerOnRegs n) := by
  interval_cases n <;> rfl

theorem variantOf_eq_none {n : Nat} (h : 3 < n) : variantOf n = none := by
  unfold variantOf
  rw [if_neg (by omega), if_neg (by omega), if_neg (by omega), if_neg (by omega)]

/-! ## Loading (R802, R1332) -/

section

variable {m : Image}

theorem Image.variant_badMagic (h : m.header.take 4 ≠ [0x4E, 0x45, 0x53, 0x1A]) : m.variant = .error .badMagic := by
  unfold Image.variant; rw [if_pos h]

theorem Image.variant_noPrg (h : m.header.take 4 = [0x4E, 0x45, 0x53, 0x1A]) (hp : (m.byte 4).toNat = 0) :
    m.variant = .error .noPrg := by
  unfold Image.variant
  rw [if_neg (not_not.2 h), if_pos (BitVec.eq_of_toNat_eq hp)]

/-- With the magic and a PRG page, the mapper number decides. -/
theorem Image.variant_of_magic (h : m.header.take 4 = [0x4E, 0x45, 0x53, 0x1A]) (hp : (m.byte 4).toNat ≠ 0) :
    m.variant = (variantOf m.mapperNumber).elim (.error (.unsupportedMapper m.mapperNumber)) .ok := by
  have hp : m.byte 4 ≠ 0 := fun zero => hp (congrArg BitVec.toNat zero)
  unfold Image.variant
  rw [if_neg (not_not.2 h), if_neg hp]
  cases variantOf m.mapperNumber <;> rfl

theorem powerOn_error {e : LoadError} (h : m.variant = .error e) (d : State) : powerOn m d = .error e := by
  unfold powerOn; rw [h]

theorem powerOn_ok {r : MapperRegs} (h : m.variant = .ok r) (d : State) :
    powerOn m d = .ok (hostReset (powerOnState m.cartridge r d)) := by
  unfold powerOn; rw [h]

end

/-! ## The state at power-on (R900, R902, R1340) -/

/-- `reset()` is the reset sequence, and nothing pending or remaining. -/
theorem hostReset_eq (s : State) :
    hostReset s =
      { s with
        pc := Spec.vectorWord 0xFFFC s, sp := 0xFF
        a := Config.freeByte s.draws, x := Config.freeByte (s.draws + 1), y := Config.freeByte (s.draws + 2)
        flags := { unpackP (Config.freeByte (s.draws + 3)) with i := true }
        pending := none, remaining := 0, draws := s.draws + 4 } := by
  rw [hostReset, resetSequence_eq, Spec.vectorWord, word_eq]; rfl

/-- After `reset()` a machine whose clock and log are empty is *fresh*. -/
theorem hostReset_fresh {s : State} (clock : s.clock = 0) (diag : s.diag = []) : (hostReset s).fresh := by
  rw [hostReset_eq]
  exact ⟨word_eq _ _, rfl, rfl, rfl, rfl, clock, diag⟩

/-- Mappers 1 and 2 show the first and the last PRG bank (R1340). -/
theorem recompute_powerOnRegs {n : Nat} (h : n = 1 ∨ n = 2) (c : Cartridge) :
    (recompute c (powerOnRegs n)).prg0 = 0 ∧ (recompute c (powerOnRegs n)).prg1 = 16384 * (c.prgPages - 1) := by
  obtain rfl | rfl := h
  · have first : 16384 * (0 % c.prgPages) = 0 := by rw [Nat.zero_mod]
    exact ⟨first, rfl⟩
  · exact ⟨rfl, rfl⟩

/-- With mapper 0 and one PRG page the upper window shows that page: the reset vector is at offset 0x3FFC (R1310). -/
theorem vectorWord_powerOnState {c : Cartridge} (hp : c.prgPages = 1) (d : State) :
    Spec.vectorWord 0xFFFC (powerOnState c .fixedBank d) = Spec.word (c.prg.read 0x3FFD) (c.prg.read 0x3FFC) := by
  have cart : (powerOnState c .fixedBank d).cart = { c with chr := if c.chrPages = 0 then d.cart.chr else c.chr } :=
    powerOnCart_eq c d
  have prg1 : (powerOnState c .fixedBank d).mapper.win.prg1 = 0 := by
    change 16384 % prgSize c = 0
    rw [prgSize, hp]
  have read (a : Addr) (upper : a.getLsbD 14 = true) :
      prgRead a (powerOnState c .fixedBank d) = c.prg.read (a.toNat % 0x4000) := by
    rw [prgRead, prgOffset, upper, if_pos rfl, prg1, cart, prgSize, hp, Nat.zero_add, Nat.mod_mod]
  rw [Spec.vectorWord, read _ (by decide), read _ (by decide)]
  rfl

/-- Settles O31: the header's checks in their order, then field by field of the state that `reset()` leaves. -/
theorem powerOnLoadsOrRefuses : Obligations.PowerOnLoadsOrRefuses := by
  intro m d _
  dsimp only
  rw [← Image.mapperNumber_eq]
  refine ⟨fun h => powerOn_error (Image.variant_badMagic h) d, fun h hp => powerOn_error (Image.variant_noPrg h hp) d,
    fun h hp hn => powerOn_error ?_ d, fun h hp hn => ?_⟩
  · rw [Image.variant_of_magic h hp, variantOf_eq_none hn]; rfl
  · have variant : m.variant = .ok (powerOnRegs m.mapperNumber) := by
      rw [Image.variant_of_magic h hp, variantOf_eq_some hn]; rfl
    refine ⟨_, powerOn_ok variant d, hostReset_fresh rfl rfl, ?_⟩
    rw [hostReset_eq, Image.cartridge_eq]
    refine ⟨powerOnCart_eq _ d, rfl, (recompute_powerOnCart _ d _).symm, fun h => recompute_powerOnRegs h _, rfl, rfl,
      rfl, rfl, rfl, rfl, rfl, fun hn hp => ?_⟩
    rw [hn]; exact vectorWord_powerOnState hp d

end Sys2Proof.Machine

/-!
PROOFS of the family 70_reset_and_hazards.md (O30, O32, O34). The parts: `reset()` (O30); the iteration that runs the
bytes at PC (O32); what an iteration charges, and what service leaves of the run loop; the clock through sound, picture
and frame driver, and with these every step (O34).
-/

namespace Sys2Proof.Machine

/-! ## `reset()` (R900) -/

/-- Settles O30: `hostReset_eq` names the draws. -/
theorem hostResetReinitializesOnlyTheCpu : Obligations.HostResetReinitializesOnlyTheCpu :=
  fun s => ⟨_, _, _, _, _, hostReset_eq s⟩

/-! ## The iteration that runs the bytes at PC (R903, R200) -/

/-- Bytes that decode to `i` with none left over stand for `i`. -/
theorem Encoded.of_decode_nil {i : Instr} {bs : List Byte} (h : decode bs = .ok (i, [])) : Encoded i bs := by
  obtain ⟨p, encoded, rfl⟩ := Encoded.of_decode h
  rwa [List.append_nil]

/-- Settles O32: the fetch after service reads the instruction that the bytes stand for. -/
theorem stepRunsTheDecodedInstruction : Obligations.StepRunsTheDecodedInstruction := by
  refine ⟨?_, fun s pending => beginIteration_of_pending_none pending⟩
  rintro s u i bs running cycles rfl at_pc decoded
  have fetched : fetchInstr (beginIteration s) =
      (i, (beginIteration s).setPc ((beginIteration s).pc + BitVec.ofNat 16 bs.length)) :=
    (Encoded.of_decode_nil decoded).fetchInstr_eq at_pc
  rw [step_running running cycles, iteration, fetched]
  rfl

/-! ## What an iteration charges (R905) -/

/-- The least base cost is that of the implied and immediate forms, the branches and the unknown opcodes. -/
theorem two_le_baseCycles (i : Instr) : 2 ≤ baseCycles i := by
  cases i
  case lda o | ldx o | ldy o | sta o | stx o | sty o | adc o | sbc o | and o | ora o | eor o | cmp o | cpx o | cpy o |
      bit o | inc o | dec o | asl o | lsr o | rol o | ror o | jmp o =>
    cases o <;> exact Nat.le_add_left 2 _
  all_goals exact Nat.le_add_left 2 _

theorem readOperand_cost_le (o : ReadOperand) (s : State) : s.cost ≤ (readOperand o s).2.cost := by
  cases o with
  | imm b => exact Nat.le_refl _
  | mem m =>
    have read : (readOperand (.mem m) s).2.cost = s.cost + crossPenalty m s := busRead_cost _ _
    omega

theorem ioWrite_cost_le (a : Addr) (d : Byte) (s : State) : s.cost ≤ (ioWrite a d s).cost := by
  unfold ioWrite
  rw [oamDma_state]
  split_ifs
  · exact Nat.le_refl _
  · exact Nat.le_add_right _ _
  · exact Nat.le_refl _
  · exact Nat.le_refl _

/-- A bus write charges the stall of an OAM DMA or nothing (R904). -/
theorem busWrite_cost_le (a : Addr) (v : Byte) (s : State) : s.cost ≤ (busWrite a v s).cost := by
  have mapper : (mapperWrite a v s).cost = s.cost := by rw [mapperWrite_state]
  unfold busWrite
  split_ifs
  · exact Nat.le_refl _
  · rw [ppuPortWrite_state]
  · exact ioWrite_cost_le a v s
  · exact mapper.ge
  · exact Nat.le_refl _
  · exact Nat.le_refl _
  · exact mapper.ge

theorem modifyMemory_cost_le (g : Byte → Flags → Byte × Flags) (m : Mode) (s : State) :
    s.cost ≤ (modifyOperand g (.mem m) s).cost := by
  calc s.cost = (busRead (effAddr m s) s).2.cost := (busRead_cost _ s).symm
    _ ≤ (modifyOperand g (.mem m) s).cost := busWrite_cost_le _ _ _

theorem shift_cost_le (g : Byte → Flags → Byte × Flags) (o : ShiftForm) (s : State) :
    s.cost ≤ (modifyOperand g (shiftOperand o) s).cost := by
  cases o with
  | acc => exact Nat.le_refl _
  | zp z => exact modifyMemory_cost_le g (.zp z) s
  | zpX z => exact modifyMemory_cost_le g (.zpX z) s
  | abs a => exact modifyMemory_cost_le g (.abs a) s
  | absX a => exact modifyMemory_cost_le g (.absX a) s

theorem branchIf_cost_le (c : Bool) (off : Byte) (s : State) : s.cost ≤ (branchIf c off s).cost := by
  cases c with
  | true => exact Nat.le_add_right _ _
  | false => exact Nat.le_refl _

/-- Instruction by instruction: `exec` takes back nothing of what is charged. -/
theorem exec_cost_le {i : Instr} {s t : State} (h : exec i s = .next t) : s.cost ≤ t.cost := by
  cases i
  case pla =>
    rw [exec_pla, pull8_eq] at h; cases h
    exact Nat.le_refl _
  case plp =>
    rw [exec_plp, pull8_eq] at h; cases h
    exact Nat.le_refl _
  case rts =>
    rw [exec_rts, pull16_eq] at h; cases h
    exact Nat.le_refl _
  case jmp o =>
    cases o with
    | abs a => cases h; exact Nat.le_refl _
    | ind ptr => rw [exec_jmpInd] at h; cases h; simp
  all_goals cases h
  case lda | ldx | ldy | adc | sbc | and | ora | eor | cmp | cpx | cpy | bit => exact readOperand_cost_le _ s
  case sta | stx | sty => exact busWrite_cost_le _ _ s
  case inc | dec => exact modifyMemory_cost_le _ _ s
  case asl | lsr | rol | ror => exact shift_cost_le _ _ s
  case bpl | bmi | bvc | bvs | bcc | bcs | bne | beq => exact branchIf_cost_le _ _ s
  case pha | php => rw [push8_eq]
  case jsr => rw [push16_eq]; exact Nat.le_refl _
  case brk => rw [takeInterrupt_eq]
  case rti => rw [returnFromInterrupt_eq]
  case tax | tay | txa | tya | tsx | txs | inx | iny | dex | dey => exact Nat.le_refl _
  case clc | sec | cli | sei | cld | sed | clv | nop | ill => exact Nat.le_refl _

/-- Whatever service and the fetch charge, the base cost comes on top. -/
theorem two_le_executing_cost (s : State) : 2 ≤ (executing s).cost :=
  (two_le_baseCycles _).trans (Nat.le_add_left _ _)

/-! ## What service leaves of the run loop (R815) -/

/-- Service does nothing, empties the slot, or serves the request in it and charges 7. -/
theorem service_cases (s : State) :
    service s = s ∨ service s = s.setPending none ∨
      (∃ k, service s = (takeInterrupt k (s.setPending none)).charge 7) ∨
      service s = (servicedReset (s.setPending none)).charge 7 := by
  unfold service
  split
  · exact .inl rfl
  · exact .inr (.inr (.inl ⟨.nmi, rfl⟩))
  · exact .inr (.inr (.inr rfl))
  · split_ifs
    · split
      · exact .inr (.inl rfl)
      · exact .inl rfl
    · exact .inr (.inr (.inl ⟨.irq, rfl⟩))

/-- An entry stores its three bytes; RESET changes the CPU, its three bytes and the draws. -/
theorem PlatformKept.of_service (s : State) : PlatformKept s (service s) := by
  obtain h | h | ⟨k, h⟩ | h := service_cases s
  · rw [h]; exact .refl s
  · rw [h]; exact { PlatformKept.refl s with }
  · rw [h]; exact { (Stores.of_takeInterrupt k (s.setPending none)).platformKept with }
  · rw [h, servicedReset_eq]; exact { PlatformKept.refl s with }

/-! ## An iteration settles what it charged (R903) -/

/-- Until the end of an iteration the counters and the frame driver stay: through service, fetch and `exec`. -/
theorem counters_of_executed {i : Instr} {s t : State} (h : exec i (executing s) = .next t) :
    t.remaining = s.remaining ∧ t.clock = s.clock ∧ t.frame = s.frame := by
  obtain ⟨remaining, clock, frame, -⟩ := instructionsLeaveThePlatformAlone _ _ _ h
  have fetch := BusFrame.of_fetchInstr (beginIteration s)
  have served := PlatformKept.of_service { s with cost := 0 }
  exact ⟨remaining.trans (fetch.remaining.trans served.remaining), clock.trans (fetch.clock.trans served.clock),
    frame.trans (fetch.frame.trans served.frame)⟩

/-- The step inside a `run` call with cycles left charges one cost, of at least 2. -/
theorem step_charges {s t : State} (running : s.frame.phase = .running) (cycles : 0 < s.remaining)
    (h : step s = .next t) :
    ∃ n : Nat, 2 ≤ n ∧ t.remaining = s.remaining - n ∧ t.clock = s.clock + n ∧ t.cost = 0 ∧ t.frame = s.frame := by
  obtain ⟨u, executed, answer⟩ := iteration_completes s
  obtain rfl : settle u = t := by rw [step_running running cycles, answer] at h; exact Host.Outcome.next.inj h
  obtain ⟨remaining, clock, frame⟩ := counters_of_executed executed
  refine ⟨u.cost, (two_le_executing_cost s).trans (exec_cost_le executed), ?_, ?_, rfl, frame⟩
  · rw [← remaining]; rfl
  · rw [← clock]; rfl

/-! ## The clock outside the iterations (R63, R903)

Only `settle` moves the clock: every other action is a choice between updates of other fields, and `apply_ite` takes the
clock past the choice. -/

/-! ### Sound -/

@[simp] theorem request_clock (k : Interrupt) (s : State) : (request k s).clock = s.clock := rfl

@[simp] theorem dmcFetch_clock (s : State) : (dmcFetch s).clock = s.clock := by
  simp [dmcFetch, apply_ite State.clock]

@[simp] theorem dmcBit_clock (s : State) : (dmcBit s).clock = s.clock := by
  simp [dmcBit, apply_ite State.clock]

@[simp] theorem dmcTick_clock (s : State) : (dmcTick s).clock = s.clock := by
  simp [dmcTick, apply_ite State.clock]

@[simp] theorem apuCycles_clock (n c : Nat) (s : State) : (apuCycles n c s).clock = s.clock := by
  induction n generalizing c s with
  | zero => rfl
  | succ n ih => simp [apuCycles, apuCycle, ih]

@[simp] theorem synthSample_clock (s : State) : (synthSample s).clock = s.clock := by simp [synthSample]

@[simp] theorem synthSamples_clock (n : Nat) (s : State) : (synthSamples n s).2.clock = s.clock := by
  induction n generalizing s with
  | zero => rfl
  | succ n ih => simp [synthSamples, ih]

@[simp] theorem createSound_clock (n : Nat) (s : State) : (createSound n s).clock = s.clock := by simp [createSound]

/-! ### The host -/

@[simp] theorem hostEvent_clock (s : State) (e : HostEvent) : (hostEvent s e).clock = s.clock := by
  cases e with
  | createSound n => exact createSound_clock n s
  | requestReset => rfl
  | reset => rw [hostEvent, hostReset_eq]
  | stop => rfl

@[simp] theorem hostActs_clock (p : HostPoint) (s : State) : (hostActs p s).clock = s.clock := by
  unfold hostActs
  generalize Config.hostEvents s.frame.count s.frame.line p = events
  induction events generalizing s with
  | nil => rfl
  | cons e events ih => rw [List.foldl_cons, ih, hostEvent_clock]

/-! ### The picture -/

@[simp] theorem renderBackground_clock (line : Line) (s : State) : (renderBackground line s).2.clock = s.clock := by
  unfold renderBackground
  generalize List.range 33 = tiles
  induction tiles generalizing line s with
  | nil => rfl
  | cons k tiles ih => rw [List.foldl_cons]; exact ih _ _

@[simp] theorem renderLine_clock (n : Nat) (s : State) : (renderLine n s).clock = s.clock := by
  have background (line : Line) :
      (if s.ppu.mask.getLsbD 3 then renderBackground line s else (line, s)).2.clock = s.clock := by
    split_ifs
    · exact renderBackground_clock line s
    · rfl
  exact background _

@[simp] theorem spriteEvaluation_clock (n : Nat) (s : State) : (spriteEvaluation n s).clock = s.clock := by
  simp [spriteEvaluation, apply_ite State.clock]

/-! ### The frame driver -/

@[simp] theorem visibleLine_clock (s : State) : (visibleLine s).clock = s.clock := by
  simp [visibleLine, apply_ite State.clock]

@[simp] theorem takeSnapshot_clock (s : State) : (takeSnapshot s).clock = s.clock := rfl

@[simp] theorem beforeLine_clock (s : State) : (beforeLine s).clock = s.clock := by
  simp [beforeLine, apply_ite State.clock]

theorem startLine_clock (s : State) : (startLine s).clock = s.clock := by
  simp [startLine, beginRun]

@[simp] theorem startVblank_clock (s : State) : (startVblank s).clock = s.clock := by
  simp [startVblank, apply_ite State.clock]

@[simp] theorem afterLine_clock (s : State) : (afterLine s).clock = s.clock := by
  simp [afterLine, apply_ite State.clock]

@[simp] theorem endFrame_clock (s : State) : (endFrame s).clock = s.clock := by
  simp [endFrame, frameEndIrq, apply_ite State.clock]

theorem endLine_clock (s : State) : (endLine s).clock = s.clock := by
  simp [endLine, apply_ite State.clock]

/-- Settles O34: an iteration charges its cost (`step_charges`); the other phases of the driver leave the clock. -/
theorem iterationsChargeRemainingAndClock : Obligations.IterationsChargeRemainingAndClock := by
  refine ⟨fun _ _ => step_charges, fun s t idle h => ?_⟩
  cases phase : s.frame.phase with
  | lineStart => rw [step_lineStart phase] at h; cases h; exact startLine_clock s
  | ended => rw [step_ended phase] at h; cases h; rfl
  | running =>
    have exhausted : s.remaining ≤ 0 := Int.not_lt.1 fun cycles => idle ⟨phase, cycles⟩
    rw [step_exhausted phase exhausted] at h; cases h; exact endLine_clock s

end Sys2Proof.Machine

/-!
PROOFS of the family 80_ppu.md (O44, O45, O46, O47, O48, O49, O51, O52). The parts: the VRAM address as four fields,
with the port writes that replace some of them (O46) and the scroll steps (O49); the PPU address space in numbers (O47,
O48); the status and data ports (O44, O45); a column of the line under a loop of pixels, for the background (O51) and
the sprites (O52).
-/

namespace Sys2Proof.Machine

/-! ## The VRAM address and its fields (R68) -/

/-- The VRAM address put together from its fields (R68): fine Y, nametable select, coarse Y, coarse X. -/
def vramFields (fy : BitVec 3) (nt : BitVec 2) (cy cx : BitVec 5) : BitVec 15 := fy ++ nt ++ cy ++ cx

section

variable (fy : BitVec 3) (nt : BitVec 2) (cy cx : BitVec 5)

theorem vramFields_toNat :
    (vramFields fy nt cy cx).toNat = Spec.packed fy.toNat nt.toNat cy.toNat cx.toNat := by
  unfold vramFields
  rw [BitVec.toNat_append, BitVec.toNat_append, BitVec.toNat_append, ← Nat.shiftLeft_add_eq_or_of_lt nt.isLt,
    ← Nat.shiftLeft_add_eq_or_of_lt cy.isLt, ← Nat.shiftLeft_add_eq_or_of_lt cx.isLt, Spec.packed]
  simp only [Nat.shiftLeft_eq]
  omega

theorem vramFields_eq_ofNat :
    vramFields fy nt cy cx = BitVec.ofNat 15 (Spec.packed fy.toNat nt.toNat cy.toNat cx.toNat) := by
  rw [← vramFields_toNat, BitVec.ofNat_toNat, BitVec.setWidth_eq]

@[simp] theorem fineY_vramFields : Spec.fineY (vramFields fy nt cy cx) = fy.toNat := by
  rw [Spec.fineY, vramFields_toNat, Spec.packed]; omega

@[simp] theorem ntSelect_vramFields : Spec.ntSelect (vramFields fy nt cy cx) = nt.toNat := by
  rw [Spec.ntSelect, vramFields_toNat, Spec.packed]; omega

@[simp] theorem coarseY_vramFields : Spec.coarseY (vramFields fy nt cy cx) = cy.toNat := by
  rw [Spec.coarseY, vramFields_toNat, Spec.packed]; omega

@[simp] theorem coarseX_vramFields : Spec.coarseX (vramFields fy nt cy cx) = cx.toNat := by
  rw [Spec.coarseX, vramFields_toNat, Spec.packed]; omega

end

theorem exists_vramFields (v : BitVec 15) : ∃ fy nt cy cx, v = vramFields fy nt cy cx := by
  refine ⟨BitVec.ofNat 3 (Spec.fineY v), BitVec.ofNat 2 (Spec.ntSelect v), BitVec.ofNat 5 (Spec.coarseY v),
    BitVec.ofNat 5 (Spec.coarseX v), BitVec.eq_of_toNat_eq ?_⟩
  rw [vramFields_toNat]
  simp only [BitVec.toNat_ofNat, Spec.packed, Spec.fineY, Spec.ntSelect, Spec.coarseY, Spec.coarseX]
  omega

theorem vramFields_and (a a' : BitVec 3) (b b' : BitVec 2) (c c' d d' : BitVec 5) :
    vramFields a b c d &&& vramFields a' b' c' d' = vramFields (a &&& a') (b &&& b') (c &&& c') (d &&& d') := by
  change a ++ b ++ c ++ d &&& a' ++ b' ++ c' ++ d' = _
  simp only [BitVec.and_append]
  rfl

theorem vramFields_or (a a' : BitVec 3) (b b' : BitVec 2) (c c' d d' : BitVec 5) :
    vramFields a b c d ||| vramFields a' b' c' d' = vramFields (a ||| a') (b ||| b') (c ||| c') (d ||| d') := by
  change a ++ b ++ c ++ d ||| a' ++ b' ++ c' ++ d' = _
  simp only [BitVec.or_append]
  rfl

theorem vramFields_xor (a a' : BitVec 3) (b b' : BitVec 2) (c c' d d' : BitVec 5) :
    vramFields a b c d ^^^ vramFields a' b' c' d' = vramFields (a ^^^ a') (b ^^^ b') (c ^^^ c') (d ^^^ d') := by
  change a ++ b ++ c ++ d ^^^ a' ++ b' ++ c' ++ d' = _
  simp only [BitVec.xor_append]
  rfl

/-- A mask of `w` bits from bit `k` on keeps that field in its place. -/
theorem and_fieldMask (n k w : Nat) : n &&& (2 ^ w - 1) * 2 ^ k = n / 2 ^ k % 2 ^ w * 2 ^ k := by
  rw [← Nat.shiftLeft_eq, ← Nat.shiftLeft_eq, ← Nat.and_two_pow_sub_one_eq_mod, Nat.shiftLeft_and_distrib,
    ← Nat.shiftRight_eq_div_pow]
  apply Nat.eq_of_testBit_eq
  intro i
  by_cases h : k ≤ i <;> simp [h]

/-! ### Masks and shifted bytes as fields -/

section

variable (fy : BitVec 3) (nt : BitVec 2) (cy cx : BitVec 5)

theorem clear_ntSelect : vramFields fy nt cy cx &&& ~~~0x0C00#15 = vramFields fy 0#2 cy cx := by
  have mask : ~~~0x0C00#15 = vramFields (.allOnes 3) 0#2 (.allOnes 5) (.allOnes 5) := by decide
  rw [mask, vramFields_and]; simp only [BitVec.and_allOnes, BitVec.and_zero]

theorem clear_coarseX : vramFields fy nt cy cx &&& ~~~0x001F#15 = vramFields fy nt cy 0#5 := by
  have mask : ~~~0x001F#15 = vramFields (.allOnes 3) (.allOnes 2) (.allOnes 5) 0#5 := by decide
  rw [mask, vramFields_and]; simp only [BitVec.and_allOnes, BitVec.and_zero]

theorem clear_coarseY : vramFields fy nt cy cx &&& ~~~0x03E0#15 = vramFields fy nt 0#5 cx := by
  have mask : ~~~0x03E0#15 = vramFields (.allOnes 3) (.allOnes 2) 0#5 (.allOnes 5) := by decide
  rw [mask, vramFields_and]; simp only [BitVec.and_allOnes, BitVec.and_zero]

theorem clear_fineY : vramFields fy nt cy cx &&& ~~~0x7000#15 = vramFields 0#3 nt cy cx := by
  have mask : ~~~0x7000#15 = vramFields 0#3 (.allOnes 2) (.allOnes 5) (.allOnes 5) := by decide
  rw [mask, vramFields_and]; simp only [BitVec.and_allOnes, BitVec.and_zero]

theorem clear_fineY_coarseY : vramFields fy nt cy cx &&& ~~~0x73E0#15 = vramFields 0#3 nt 0#5 cx := by
  have mask : ~~~0x73E0#15 = vramFields 0#3 (.allOnes 2) 0#5 (.allOnes 5) := by decide
  rw [mask, vramFields_and]; simp only [BitVec.and_allOnes, BitVec.and_zero]

end

theorem low2_eq_vramFields (d : Byte) :
    (d &&& 0x03).setWidth 15 <<< 10 = vramFields 0#3 (BitVec.ofNat 2 d.toNat) 0#5 0#5 := by
  apply BitVec.eq_of_toNat_eq
  have low : (d &&& 0x03).toNat = d.toNat % 4 := Nat.and_two_pow_sub_one_eq_mod d.toNat 2
  rw [vramFields_toNat, BitVec.toNat_shiftLeft, BitVec.toNat_setWidth, low, Nat.shiftLeft_eq, Spec.packed]
  simp only [BitVec.toNat_ofNat]
  omega

theorem low3_eq_vramFields (d : Byte) :
    (d &&& 0x07).setWidth 15 <<< 12 = vramFields (BitVec.ofNat 3 d.toNat) 0#2 0#5 0#5 := by
  apply BitVec.eq_of_toNat_eq
  have low : (d &&& 0x07).toNat = d.toNat % 8 := Nat.and_two_pow_sub_one_eq_mod d.toNat 3
  rw [vramFields_toNat, BitVec.toNat_shiftLeft, BitVec.toNat_setWidth, low, Nat.shiftLeft_eq, Spec.packed]
  simp only [BitVec.toNat_ofNat]
  omega

theorem high5_eq_vramFields (d : Byte) :
    (d >>> 3).setWidth 15 = vramFields 0#3 0#2 0#5 (BitVec.ofNat 5 (d.toNat / 8)) := by
  apply BitVec.eq_of_toNat_eq
  rw [vramFields_toNat, BitVec.toNat_setWidth, BitVec.toNat_ushiftRight, Nat.shiftRight_eq_div_pow, Spec.packed]
  simp only [BitVec.toNat_ofNat]
  omega

/-- Coarse X moved to the place of coarse Y. -/
theorem vramFields_shiftLeft_five (c : BitVec 5) : vramFields 0#3 0#2 0#5 c <<< 5 = vramFields 0#3 0#2 c 0#5 := by
  apply BitVec.eq_of_toNat_eq
  rw [vramFields_toNat, BitVec.toNat_shiftLeft, vramFields_toNat, Nat.shiftLeft_eq, Spec.packed, Spec.packed]
  simp only [BitVec.toNat_ofNat]
  omega

/-! ### A field replaced -/

theorem replace_ntSelect (t : BitVec 15) (d : Byte) :
    (t &&& ~~~0x0C00#15) ||| ((d &&& 0x03).setWidth 15 <<< 10) =
      BitVec.ofNat 15 (Spec.packed (Spec.fineY t) (d.toNat % 4) (Spec.coarseY t) (Spec.coarseX t)) := by
  obtain ⟨fy, nt, cy, cx, rfl⟩ := exists_vramFields t
  rw [clear_ntSelect, low2_eq_vramFields, vramFields_or, vramFields_eq_ofNat]
  simp

theorem replace_coarseX (t : BitVec 15) (d : Byte) :
    (t &&& ~~~0x001F#15) ||| (d >>> 3).setWidth 15 =
      BitVec.ofNat 15 (Spec.packed (Spec.fineY t) (Spec.ntSelect t) (Spec.coarseY t) (d.toNat / 8)) := by
  obtain ⟨fy, nt, cy, cx, rfl⟩ := exists_vramFields t
  have inRange : d.toNat / 8 < 32 := by omega
  rw [clear_coarseX, high5_eq_vramFields, vramFields_or, vramFields_eq_ofNat]
  simp [Nat.mod_eq_of_lt inRange]

theorem replace_fineY_coarseY (t : BitVec 15) (d : Byte) :
    (t &&& ~~~0x73E0#15) ||| ((d &&& 0x07).setWidth 15 <<< 12) ||| ((d >>> 3).setWidth 15 <<< 5) =
      BitVec.ofNat 15 (Spec.packed (d.toNat % 8) (Spec.ntSelect t) (d.toNat / 8) (Spec.coarseX t)) := by
  obtain ⟨fy, nt, cy, cx, rfl⟩ := exists_vramFields t
  have inRange : d.toNat / 8 < 32 := by omega
  rw [clear_fineY_coarseY, low3_eq_vramFields, high5_eq_vramFields, vramFields_shiftLeft_five, vramFields_or,
    vramFields_or, vramFields_eq_ofNat]
  simp [Nat.mod_eq_of_lt inRange]

/-- Bits 13 to 8 replaced and bit 14 cleared. -/
theorem replace_highByte (t : BitVec 15) (d : Byte) :
    (t &&& 0x00FF#15) ||| ((d &&& 0x3F).setWidth 15 <<< 8) =
      BitVec.ofNat 15 (d.toNat % 64 * 256 + t.toNat % 256) := by
  have low : t &&& 0x00FF#15 = BitVec.ofNat 15 (t.toNat % 256) := by
    have masked : (t &&& 0x00FF#15).toNat = t.toNat % 256 := Nat.and_two_pow_sub_one_eq_mod t.toNat 8
    rw [← masked, BitVec.ofNat_toNat, BitVec.setWidth_eq]
  have high : (d &&& 0x3F).setWidth 15 <<< 8 = BitVec.ofNat 15 (2 ^ 8 * (d.toNat % 64)) := by
    have masked : (d &&& 0x3F).toNat = d.toNat % 64 := Nat.and_two_pow_sub_one_eq_mod d.toNat 6
    apply BitVec.eq_of_toNat_eq
    rw [BitVec.toNat_shiftLeft, BitVec.toNat_setWidth, masked, Nat.shiftLeft_eq, BitVec.toNat_ofNat]
    omega
  have small : t.toNat % 256 < 2 ^ 8 := by omega
  rw [low, high, BitVec.or_comm, ← BitVec.ofNat_or, ← Nat.two_pow_add_eq_or_of_lt small, Nat.mul_comm]

theorem replace_lowByte (t : BitVec 15) (d : Byte) :
    (t &&& 0x7F00#15) ||| d.setWidth 15 = BitVec.ofNat 15 (t.toNat / 256 * 256 + d.toNat) := by
  have high : t &&& 0x7F00#15 = BitVec.ofNat 15 (2 ^ 8 * (t.toNat / 256)) := by
    have masked : (t &&& 0x7F00#15).toNat = t.toNat / 2 ^ 8 % 2 ^ 7 * 2 ^ 8 := and_fieldMask t.toNat 8 7
    apply BitVec.eq_of_toNat_eq
    rw [masked, BitVec.toNat_ofNat]
    omega
  rw [high, ← BitVec.ofNat_toNat, ← BitVec.ofNat_or, ← Nat.two_pow_add_eq_or_of_lt d.isLt, Nat.mul_comm]

/-! ## Ports -/

/-- A PPU port write through the bus. -/
theorem port_eq {p : Nat} (h : p < 8) (d : Byte) (s : State) : Spec.port p d s = ppuPortWrite p d s := by
  have address : (BitVec.ofNat 16 (0x2000 + p)).toNat = 0x2000 + p := by rw [BitVec.toNat_ofNat]; omega
  rw [Spec.port, busWrite_ppu d s (by omega) (by omega), address]
  congr 1
  omega

theorem addrWrite_first {p : Ppu} (h : p.w = false) (d : Byte) :
    addrWrite d p = { p with t := BitVec.ofNat 15 (d.toNat % 64 * 256 + p.t.toNat % 256), w := true } := by
  rw [addrWrite, h, replace_highByte]; rfl

theorem addrWrite_second {p : Ppu} (h : p.w = true) (d : Byte) :
    addrWrite d p = { p with
      t := BitVec.ofNat 15 (p.t.toNat / 256 * 256 + d.toNat), v := BitVec.ofNat 15 (p.t.toNat / 256 * 256 + d.toNat)
      w := false } := by
  rw [addrWrite, h, replace_lowByte]; rfl

/-- Settles O46: port by port, each field of t that a write replaces. -/
theorem scrollWritesPackTheirFields : Obligations.ScrollWritesPackTheirFields := by
  intro s d
  refine ⟨?_, port_eq (by decide) d s, port_eq (by decide) d s, fun w => ?_, fun w => ?_, fun w => ?_, fun w => ?_⟩
  · rw [port_eq (by decide), ← replace_ntSelect]; rfl
  · rw [port_eq (by decide), ← replace_coarseX]
    change { s with ppu := scrollWrite d s.ppu } = _
    rw [scrollWrite, w]; rfl
  · rw [port_eq (by decide), ← replace_fineY_coarseY]
    change { s with ppu := scrollWrite d s.ppu } = _
    rw [scrollWrite, w]; rfl
  · rw [port_eq (by decide), ← addrWrite_first w]; rfl
  · rw [port_eq (by decide), ← addrWrite_second w]; rfl

/-! ## Scroll steps (R1033, R1034) -/

theorem vramFields_low_toNat (c : BitVec 5) : (vramFields 0#3 0#2 0#5 c).toNat = c.toNat := by
  rw [vramFields_toNat, Spec.packed]
  simp only [BitVec.toNat_ofNat, Nat.zero_mod, Nat.mul_zero, Nat.zero_add]

/-- Coarse Y alone, in the low bits. -/
theorem vramFields_shiftRight_five (fy : BitVec 3) (nt : BitVec 2) (cy cx : BitVec 5) :
    (vramFields fy nt cy cx >>> 5) &&& 0x1F#15 = vramFields 0#3 0#2 0#5 cy := by
  apply BitVec.eq_of_toNat_eq
  rw [BitVec.toNat_and, BitVec.toNat_ushiftRight, Nat.shiftRight_eq_div_pow, vramFields_low_toNat,
    ← coarseY_vramFields fy nt cy cx]
  exact Nat.and_two_pow_sub_one_eq_mod _ 5

/-- Below 31 the low field steps without a carry. -/
theorem vramFields_low_add_one (c : BitVec 5) (h : c.toNat ≠ 31) :
    vramFields 0#3 0#2 0#5 c + 1 = vramFields 0#3 0#2 0#5 (c + 1) := by
  apply BitVec.eq_of_toNat_eq
  have small : c.toNat + (1 : BitVec 5).toNat < 2 ^ 5 := show c.toNat + 1 < 32 by omega
  have small' : (vramFields 0#3 0#2 0#5 c).toNat + (1 : BitVec 15).toNat < 2 ^ 15 := by
    rw [vramFields_low_toNat]; exact small.trans (by decide)
  rw [BitVec.toNat_add_of_lt small', vramFields_low_toNat, vramFields_low_toNat, BitVec.toNat_add_of_lt small]
  rfl

section

variable (fy : BitVec 3) (nt : BitVec 2) (cy cx : BitVec 5)

theorem and_coarseXMask_eq_31 : vramFields fy nt cy cx &&& 0x001F#15 = 31 ↔ cx.toNat = 31 := by
  have masked : (vramFields fy nt cy cx &&& 0x001F#15).toNat = cx.toNat :=
    (Nat.and_two_pow_sub_one_eq_mod _ 5).trans (coarseX_vramFields fy nt cy cx)
  rw [← BitVec.toNat_inj, masked]; rfl

theorem and_fineYMask_eq : vramFields fy nt cy cx &&& 0x7000#15 = 0x7000 ↔ fy.toNat = 7 := by
  have masked : (vramFields fy nt cy cx &&& 0x7000#15).toNat = fy.toNat * 4096 := by
    rw [← fineY_vramFields fy nt cy cx, Spec.fineY]
    exact (and_fieldMask (vramFields fy nt cy cx).toNat 12 3).trans (by omega)
  rw [← BitVec.toNat_inj, masked, show (0x7000 : BitVec 15).toNat = 7 * 4096 from rfl]
  omega

theorem switch_horizontal : vramFields fy nt cy cx ^^^ 0x0400 = vramFields fy (nt ^^^ 1#2) cy cx := by
  have bit : 0x0400 = vramFields 0#3 1#2 0#5 0#5 := by decide
  rw [bit, vramFields_xor]; simp only [BitVec.xor_zero]

theorem switch_vertical : vramFields fy nt cy cx ^^^ 0x0800 = vramFields fy (nt ^^^ 2#2) cy cx := by
  have bit : 0x0800 = vramFields 0#3 2#2 0#5 0#5 := by decide
  rw [bit, vramFields_xor]; simp only [BitVec.xor_zero]

/-- Below 31 coarse X steps without a carry. -/
theorem incCoarseX_vramFields_of_ne (h : cx.toNat ≠ 31) : incCoarseX (vramFields fy nt cy cx) =
    BitVec.ofNat 15 (Spec.packed fy.toNat nt.toNat cy.toNat (cx.toNat + 1)) := by
  rw [incCoarseX, if_neg (mt (and_coarseXMask_eq_31 fy nt cy cx).1 h), vramFields_eq_ofNat]
  exact (BitVec.ofNat_add _ 1).symm

theorem incCoarseX_vramFields_of_eq (h : cx.toNat = 31) : incCoarseX (vramFields fy nt cy cx) =
    BitVec.ofNat 15 (Spec.packed fy.toNat
      (if nt.toNat % 2 = 0 then nt.toNat + 1 else nt.toNat - 1) cy.toNat 0) := by
  have switched : (nt ^^^ 1#2).toNat = if nt.toNat % 2 = 0 then nt.toNat + 1 else nt.toNat - 1 := by
    revert nt; decide
  rw [incCoarseX, if_pos ((and_coarseXMask_eq_31 fy nt cy cx).2 h), clear_coarseX, switch_horizontal,
    vramFields_eq_ofNat, switched]
  rfl

/-- Below 7 fine Y steps without a carry. -/
theorem incY_vramFields_of_ne (h : fy.toNat ≠ 7) : incY (vramFields fy nt cy cx) =
    BitVec.ofNat 15 (Spec.packed (fy.toNat + 1) nt.toNat cy.toNat cx.toNat) := by
  have step : Spec.packed (fy.toNat + 1) nt.toNat cy.toNat cx.toNat =
      Spec.packed fy.toNat nt.toNat cy.toNat cx.toNat + 0x1000 := by simp only [Spec.packed]; omega
  rw [incY, if_pos (mt (and_fineYMask_eq fy nt cy cx).1 h), vramFields_eq_ofNat, step, BitVec.ofNat_add]
  rfl

/-- From 7 fine Y goes to 0 and coarse Y steps: from 29 to 0 and the other vertical table, from 31 to 0 in the same. -/
theorem incY_vramFields_of_eq (h : fy.toNat = 7) : incY (vramFields fy nt cy cx) =
    if cy.toNat = 29 then vramFields 0#3 (nt ^^^ 2#2) 0#5 cx
    else if cy.toNat = 31 then vramFields 0#3 nt 0#5 cx
    else vramFields 0#3 nt (cy + 1) cx := by
  have at29 : vramFields 0#3 0#2 0#5 cy = 29 ↔ cy.toNat = 29 := by rw [← BitVec.toNat_inj, vramFields_low_toNat]; rfl
  have at31 : vramFields 0#3 0#2 0#5 cy = 31 ↔ cy.toNat = 31 := by rw [← BitVec.toNat_inj, vramFields_low_toNat]; rfl
  rw [incY, if_neg (not_not_intro ((and_fineYMask_eq fy nt cy cx).2 h))]
  simp only [clear_fineY, vramFields_shiftRight_five, at29, at31, switch_vertical, clear_coarseY]
  split_ifs with h29 h31
  · rfl
  · rfl
  · rw [vramFields_low_add_one cy h31, vramFields_shiftLeft_five, vramFields_or]
    simp only [BitVec.or_zero, BitVec.zero_or]

end

/-- Settles O49: each step by the value of the field that steps. -/
theorem scrollStepsWrapIntoNametables : Obligations.ScrollStepsWrapIntoNametables := by
  intro v
  obtain ⟨fy, nt, cy, cx, rfl⟩ := exists_vramFields v
  dsimp only
  rw [fineY_vramFields, ntSelect_vramFields, coarseY_vramFields, coarseX_vramFields]
  constructor
  · by_cases h : cx.toNat = 31
    · rw [if_pos h]; exact incCoarseX_vramFields_of_eq fy nt cy cx h
    · rw [if_neg h]; exact incCoarseX_vramFields_of_ne fy nt cy cx h
  · by_cases h : fy.toNat = 7
    · rw [if_neg (by omega), incY_vramFields_of_eq fy nt cy cx h]
      split_ifs with h29 h31
      · have switched : (nt ^^^ 2#2).toNat = (nt.toNat + 2) % 4 := by revert nt; decide
        rw [vramFields_eq_ofNat, switched]; rfl
      · exact vramFields_eq_ofNat _ nt _ cx
      · rw [vramFields_eq_ofNat, BitVec.toNat_add_of_lt (show cy.toNat + 1 < 32 by omega)]; rfl
    · rw [if_pos (by omega)]; exact incY_vramFields_of_ne fy nt cy cx h

/-! ## The address space in numbers (R1010-R1012, R1303) -/

theorem palIndex_eq (a : BitVec 14) : palIndex a = Spec.paletteEntry a.toNat := by
  unfold palIndex Spec.paletteEntry
  simp only [List.mem_cons, List.not_mem_nil, or_false]

theorem get_eq_table (m : NtMap) (a : Nat) : (m.get (a / 1024 % 4)).val = Spec.table a m := by
  have range : a / 1024 % 4 < 4 := Nat.mod_lt _ (by decide)
  unfold NtMap.get Spec.table
  generalize a / 1024 % 4 = n at range
  interval_cases n <;> rfl

theorem ntIndex_eq (a : BitVec 14) (m : NtMap) : ntIndex a m = 1024 * Spec.table a.toNat m + a.toNat % 1024 := by
  rw [ntIndex, get_eq_table]

/-- Below 0x2000 bit 12 selects the upper CHR window. -/
theorem getLsbD_12 {a : BitVec 14} (h : a.toNat < 0x2000) : a.getLsbD 12 = !decide (a.toNat < 0x1000) := by
  rw [BitVec.getLsbD, Nat.testBit_eq_decide_div_mod_eq, ← decide_not, decide_eq_decide]
  omega

theorem chrOffset_eq {a : BitVec 14} (s : State) (h : a.toNat < 0x2000) : chrOffset a s = Spec.chrPlace a.toNat s := by
  unfold chrOffset Spec.chrPlace chrSize
  rw [getLsbD_12 h]
  by_cases low : a.toNat < 0x1000 <;> simp [low]

theorem ppuRead_eq_shown (a : BitVec 14) (s : State) : ppuRead a s = Spec.shown a.toNat s := by
  unfold ppuRead Spec.shown
  split_ifs with chr nt
  · rw [chrRead, chrOffset_eq s chr]
  · rw [ntIndex_eq]
  · rw [palIndex_eq]

theorem ppuWrite_eq_stored (a : BitVec 14) (d : Byte) (s : State) : ppuWrite a d s = Spec.stored a.toNat d s := by
  unfold ppuWrite Spec.stored
  split_ifs with chr ram nt
  · rw [chrWrite, if_pos ram, chrOffset_eq s chr]
  · rw [chrWrite, if_neg ram]
  · rw [ntIndex_eq]
  · rw [palIndex_eq]

/-! ### The palette (R1011) -/

theorem ppuRead_palette {a : BitVec 14} (h : 0x3F00 ≤ a.toNat) (s : State) :
    ppuRead a s = s.ppu.pal.read (Spec.paletteEntry a.toNat) := by
  rw [ppuRead, if_neg (by omega), if_neg (by omega), palIndex_eq]

theorem ppuWrite_palette {a : BitVec 14} (h : 0x3F00 ≤ a.toNat) (v : Byte) (s : State) :
    ppuWrite a v s = { s with ppu := { s.ppu with pal := s.ppu.pal.write (Spec.paletteEntry a.toNat) v } } := by
  rw [ppuWrite, if_neg (by omega), if_neg (by omega), palIndex_eq]

/-- Settles O48: the palette is one store, read and written at the entry an address names. -/
theorem paletteEntriesMirror : Obligations.PaletteEntriesMirror := by
  intro a b v s ha hb
  rw [ppuRead_palette hb, ppuRead_palette hb, ppuWrite_palette ha]
  dsimp only
  rw [Memory.read_write]
  exact if_congr eq_comm rfl rfl

/-! ### The nametables (R1012, R1013) -/

section

variable {n o : Nat} (hn : n < 4) (ho : o < 1024)
include hn ho

theorem nametable_toNat : (BitVec.ofNat 14 (0x2000 + 1024 * n + o)).toNat = 0x2000 + 1024 * n + o := by
  rw [BitVec.toNat_ofNat]; omega

theorem ntIndex_nametable (m : NtMap) :
    ntIndex (BitVec.ofNat 14 (0x2000 + 1024 * n + o)) m = 1024 * (m.get n).val + o := by
  rw [ntIndex, nametable_toNat hn ho, show (0x2000 + 1024 * n + o) / 1024 % 4 = n by omega]
  omega

theorem ppuRead_nametable (s : State) :
    ppuRead (BitVec.ofNat 14 (0x2000 + 1024 * n + o)) s = s.ppu.nt.read (1024 * (s.ppu.ntmap.get n).val + o) := by
  rw [ppuRead, ntIndex_nametable hn ho, nametable_toNat hn ho, if_neg (by omega), if_pos (by omega)]

theorem ppuWrite_nametable (v : Byte) (s : State) :
    ppuWrite (BitVec.ofNat 14 (0x2000 + 1024 * n + o)) v s =
      { s with ppu := { s.ppu with nt := s.ppu.nt.write (1024 * (s.ppu.ntmap.get n).val + o) v } } := by
  rw [ppuWrite, ntIndex_nametable hn ho, nametable_toNat hn ho, if_neg (by omega), if_pos (by omega)]

end

/-- A mode aliases two tables where it maps them to one buffer: checked for every mode and table. -/
theorem aliased_iff (mode : Mirroring) {m n : Nat} (hm : m < 4) (hn : n < 4) :
    Spec.aliased mode m n = true ↔ (ntmapOf mode).get m = (ntmapOf mode).get n := by
  have all : ∀ m < 4, ∀ n < 4, (Spec.aliased mode m n = true ↔ (ntmapOf mode).get m = (ntmapOf mode).get n) := by
    cases mode <;> decide
  exact all m hm n hn

/-- Settles O47: two offsets of the nametable memory are one byte where buffer and offset are the same. -/
theorem mirroringAliasesNametables : Obligations.MirroringAliasesNametables := by
  intro mode s
  refine ⟨rfl, ⟨ntmapOf mode, rfl, by cases mode <;> rfl⟩, fun m n o q v hm hn ho hq => ?_⟩
  have sameByte : 1024 * ((ntmapOf mode).get n).val + q = 1024 * ((ntmapOf mode).get m).val + o ↔
      Spec.aliased mode m n = true ∧ q = o := by
    rw [aliased_iff mode hm hn, Fin.ext_iff]; omega
  dsimp only
  rw [ppuRead_nametable hn hq, ppuRead_nametable hn hq, ppuWrite_nametable hm ho]
  dsimp only [changeMirroring]
  rw [Memory.read_write]
  exact if_congr sameByte rfl rfl

/-! ## Port reads -/

/-- The three flags lie in bits 7 to 5, above the five drawn bits. -/
theorem status_eq (vblank hit overflow : Bool) (r : Byte) (h : r.toNat < 32) :
    bitAt vblank 7 ||| bitAt hit 6 ||| bitAt overflow 5 ||| r =
      BitVec.ofNat 8 (128 * vblank.toNat + 64 * hit.toNat + 32 * overflow.toNat + r.toNat) := by
  have flags : bitAt vblank 7 ||| bitAt hit 6 ||| bitAt overflow 5 =
      BitVec.ofNat 8 (2 ^ 5 * (4 * vblank.toNat + 2 * hit.toNat + overflow.toNat)) := by
    revert vblank hit overflow; decide
  have below : r.toNat < 2 ^ 5 := h
  calc bitAt vblank 7 ||| bitAt hit 6 ||| bitAt overflow 5 ||| r
    _ = BitVec.ofNat 8 (2 ^ 5 * (4 * vblank.toNat + 2 * hit.toNat + overflow.toNat) ||| r.toNat) := by
      rw [flags, BitVec.ofNat_or, BitVec.ofNat_toNat, BitVec.setWidth_eq]
    _ = _ := by rw [← Nat.two_pow_add_eq_or_of_lt below]; congr 1; omega

/-- Settles O44: the free bits are those of the next draw. -/
theorem statusReadClearsVblankAndToggle : Obligations.StatusReadClearsVblankAndToggle := by
  intro s d
  have free : (Config.freeByte s.draws &&& 0x1F).toNat < 32 := by
    rw [BitVec.toNat_and]; exact Nat.and_lt_two_pow _ (show 0x1F < 2 ^ 5 by decide)
  exact ⟨Config.freeByte s.draws &&& 0x1F, free, congrArg (·, _) (status_eq _ _ _ _ free), rfl⟩

/-! ## The data port (R1023, R1024) -/

theorem shown_eq_ppuRead {a : Nat} (h : a < 0x4000) (s : State) : Spec.shown a s = ppuRead (BitVec.ofNat 14 a) s := by
  rw [ppuRead_eq_shown, BitVec.toNat_ofNat, Nat.mod_eq_of_lt h]

theorem vramAddress_toNat (v : BitVec 15) : (v.setWidth 14).toNat = v.toNat % 0x4000 := BitVec.toNat_setWidth 14 v

/-- Clearing bit 12 of a palette address gives the nametable byte 0x1000 below it. -/
theorem and_2FFF_toNat {a : BitVec 14} (h : 0x3F00 ≤ a.toNat) : (a &&& 0x2FFF).toNat = a.toNat - 0x1000 := by
  have high : (a.toNat &&& 0x2FFF) / 2 ^ 12 = 2 := by 
    rw [Nat.and_div_two_pow, show a.toNat / 2 ^ 12 = 3 by omega]; rfl
  have low : (a.toNat &&& 0x2FFF) % 2 ^ 12 = a.toNat % 2 ^ 12 := by
    rw [Nat.and_mod_two_pow]
    exact (Nat.and_two_pow_sub_one_eq_mod _ 12).trans (Nat.mod_mod _ _)
  rw [BitVec.toNat_and, show (0x2FFF : BitVec 14).toNat = 0x2FFF from rfl]
  omega

theorem add_vramStep (p : Ppu) : p.v + vramStep p = Spec.steppedV p := by
  unfold vramStep Spec.steppedV
  rw [BitVec.ofNat_add, BitVec.ofNat_toNat, BitVec.setWidth_eq]
  cases p.ctrl.getLsbD 2 <;> rfl

/-- A write of PPU memory leaves v and PPUCTRL. -/
theorem stored_vramAddress (a : Nat) (d : Byte) (s : State) :
    (Spec.stored a d s).ppu.v = s.ppu.v ∧ (Spec.stored a d s).ppu.ctrl = s.ppu.ctrl := by
  unfold Spec.stored; split_ifs <;> exact ⟨rfl, rfl⟩

theorem busRead_2007 (s : State) : busRead 0x2007 s =
    (if s.ppu.v.toNat % 0x4000 < 0x3F00 then s.ppu.rdbuf else Spec.shown (s.ppu.v.toNat % 0x4000) s,
      { s with ppu := { s.ppu with
        rdbuf := if s.ppu.v.toNat % 0x4000 < 0x3F00 then Spec.shown (s.ppu.v.toNat % 0x4000) s
          else Spec.shown (s.ppu.v.toNat % 0x4000 - 0x1000) s
        v := Spec.steppedV s.ppu } }) := by
  have port : busRead 0x2007 s = dataRead s := rfl
  rw [port, dataRead, ← add_vramStep, ← vramAddress_toNat]
  by_cases palette : 0x3F00 ≤ (s.ppu.v.setWidth 14).toNat
  · simp only [if_pos palette, if_neg (Nat.not_lt.2 palette), ppuRead_eq_shown, and_2FFF_toNat palette]
  · simp only [if_neg palette, if_pos (Nat.lt_of_not_le palette), ppuRead_eq_shown]

theorem port_7 (d : Byte) (s : State) : Spec.port 7 d s =
    { Spec.stored (s.ppu.v.toNat % 0x4000) d s with
      ppu := { (Spec.stored (s.ppu.v.toNat % 0x4000) d s).ppu with v := Spec.steppedV s.ppu } } := by
  have port : Spec.port 7 d s = dataWrite d s := port_eq (by decide) d s
  obtain ⟨v, ctrl⟩ := stored_vramAddress (s.ppu.v.toNat % 0x4000) d s
  rw [port, dataWrite, ppuWrite_eq_stored, vramAddress_toNat, add_vramStep]
  unfold Spec.steppedV
  rw [v, ctrl]

theorem busRead_writeOnlyPort {p : Nat} (h : p ∈ [0, 1, 3, 5, 6]) (s : State) :
    busRead (BitVec.ofNat 16 (0x2000 + p)) s = drawByte s := by
  fin_cases h <;> rfl

/-- Two writes of $2006 from w = 0 load v. -/
theorem port_6_twice {s : State} (h l : Byte) (w : s.ppu.w = false) :
    Spec.port 6 l (Spec.port 6 h s) = { s with ppu := { s.ppu with
      t := BitVec.ofNat 15 (h.toNat % 64 * 256 + l.toNat), v := BitVec.ofNat 15 (h.toNat % 64 * 256 + l.toNat)
      w := false } } := by
  have first : Spec.port 6 h s = { s with ppu := addrWrite h s.ppu } := port_eq (by decide) h s
  have second (u : State) : Spec.port 6 l u = { u with ppu := addrWrite l u.ppu } := port_eq (by decide) l u
  have joined : (BitVec.ofNat 15 (h.toNat % 64 * 256 + s.ppu.t.toNat % 256)).toNat / 256 * 256 =
      h.toNat % 64 * 256 := by
    rw [BitVec.toNat_ofNat]; omega
  rw [second, first, addrWrite_first w, addrWrite_second rfl]
  dsimp only
  rw [joined]

/-- The step of v in numbers. -/
def vramStepNat (s : State) : Nat := if s.ppu.ctrl.getLsbD 2 then 32 else 1

theorem vramStepNat_le (s : State) : vramStepNat s ≤ 32 := by unfold vramStepNat; split_ifs <;> decide

theorem steppedV_toNat (s : State) : (Spec.steppedV s.ppu).toNat = (s.ppu.v.toNat + vramStepNat s) % 0x8000 :=
  BitVec.toNat_ofNat _ _

/-! ### Two reads in a row -/

theorem busRead_2007_byte (s : State) : (busRead 0x2007 s).1 =
    if s.ppu.v.toNat % 0x4000 < 0x3F00 then s.ppu.rdbuf else Spec.shown (s.ppu.v.toNat % 0x4000) s := by
  rw [busRead_2007]

theorem busRead_2007_rdbuf {s : State} (h : s.ppu.v.toNat % 0x4000 < 0x3F00) :
    (busRead 0x2007 s).2.ppu.rdbuf = Spec.shown (s.ppu.v.toNat % 0x4000) s := by
  rw [busRead_2007]; exact if_pos h

theorem busRead_2007_v (s : State) : (busRead 0x2007 s).2.ppu.v.toNat = (s.ppu.v.toNat + vramStepNat s) % 0x8000 := by
  rw [busRead_2007, ← steppedV_toNat]

theorem vramStepNat_busRead_2007 (s : State) : vramStepNat (busRead 0x2007 s).2 = vramStepNat s := by
  rw [busRead_2007]; rfl

theorem shown_busRead_2007 (a : Nat) (s : State) : Spec.shown a (busRead 0x2007 s).2 = Spec.shown a s := by
  rw [busRead_2007]; rfl

/-- The read after one from a buffered address gives the byte there, unless v has come to the palette. -/
theorem busRead_2007_again {s : State} {n : Nat} (v : s.ppu.v.toNat = n) (h : n < 0x3F00) :
    (busRead 0x2007 (busRead 0x2007 s).2).1 =
      if n + vramStepNat s < 0x3F00 then Spec.shown n s else Spec.shown (n + vramStepNat s) s := by
  have step := vramStepNat_le s
  have here : s.ppu.v.toNat % 0x4000 = n := by omega
  have next : (busRead 0x2007 s).2.ppu.v.toNat % 0x4000 = n + vramStepNat s := by rw [busRead_2007_v]; omega
  have filled : (busRead 0x2007 s).2.ppu.rdbuf = Spec.shown n s := by rw [busRead_2007_rdbuf (by omega), here]
  rw [busRead_2007_byte, next, filled, shown_busRead_2007]

/-- Settles O45: after the two writes of $2006, `busRead_2007_again` from v = n. -/
theorem dataPortReadsAreBuffered : Obligations.DataPortReadsAreBuffered := by
  refine ⟨fun a d s => ⟨ppuRead_eq_shown a s, ppuWrite_eq_stored a d s⟩, fun s d => ⟨busRead_2007 s, port_7 d s⟩,
    fun s p h => busRead_writeOnlyPort h s, fun s h l n w hn => ?_⟩
  have loaded := port_6_twice h l w
  rw [← hn] at loaded
  dsimp only
  generalize Spec.port 6 l (Spec.port 6 h s) = p at loaded
  have range : n < 0x4000 := by omega
  have step := vramStepNat_le s
  have v : p.ppu.v.toNat = n := by
    rw [loaded]; exact (BitVec.toNat_ofNat n 15).trans (Nat.mod_eq_of_lt (by omega))
  have stepKept : vramStepNat p = vramStepNat s := by rw [loaded]; rfl
  have shown {a : Nat} (ha : a < 0x4000) : Spec.shown a p = ppuRead (BitVec.ofNat 14 a) s := by
    rw [shown_eq_ppuRead ha, loaded]; rfl
  refine ⟨v, by rw [loaded], fun below => ⟨?_, ?_⟩, fun palette => ?_, ?_⟩
  · rw [busRead_2007_byte, if_pos (by omega), loaded]
  · rw [busRead_2007_again v below, stepKept, shown range, shown (by omega)]; rfl
  · rw [busRead_2007_byte, if_neg (by omega), v, Nat.mod_eq_of_lt range, shown range]
  · rw [busRead_2007_v, busRead_2007_v, vramStepNat_busRead_2007, stepKept, v, Nat.mod_add_mod, Nat.add_assoc,
      ← Nat.two_mul]
    rfl

/-! ## One column of a line that is drawn pixel by pixel

Both rasterizers draw a tile in a loop over its 8 pixels, each of which can change its own column only. -/

/-- A loop whose pixel `p` changes at most the column at place `base + p`, by `paint p`, changes the column at `place`
by its own pixel only. -/
theorem foldl_columns {step : Line → Nat → Line} {paint : Nat → Pixel → Pixel} {base place sx : Nat}
    (h : ∀ row p, (step row p)[sx]? = if place = base + p then row[sx]?.map (paint p) else row[sx]?)
    (n : Nat) (row : Line) : ((List.range n).foldl step row)[sx]? =
      if base ≤ place ∧ place < base + n then row[sx]?.map (paint (place - base)) else row[sx]? := by
  induction n with
  | zero => rw [if_neg (by omega)]; rfl
  | succ n ih =>
    rw [List.range_succ, List.foldl_append, List.foldl_cons, List.foldl_nil, h, ih]
    by_cases now : place = base + n
    · rw [if_pos now, if_neg (by omega), if_pos (by omega), show place - base = n by omega]
    · rw [if_neg now]
      exact if_congr (by omega) rfl rfl

/-- One pixel drawn into its column, unless it is off the screen or leaves the column as it was. -/
theorem getElem?_modify_unless {kept : Prop} [Decidable kept] {sx : Nat} (h : sx < 256) (row : Line)
    (f : Pixel → Pixel) :
    (if 255 < sx ∨ kept then row else row.modify sx f)[sx]? = row[sx]?.map fun px => if kept then px else f px := by
  have onScreen : 255 < sx ∨ kept ↔ kept := or_iff_right (by omega)
  rw [if_congr onScreen rfl rfl]
  split_ifs
  · exact Option.map_id'.symm
  · exact List.getElem?_modify_eq f sx row

/-- The colour index in numbers (R1032). -/
theorem colourIndex_patternRow (base tile row p : Nat) (s : State) :
    colourIndex (patternRow base tile row s) p = Spec.patternPixel (base + 16 * tile + row) p s := by
  unfold colourIndex Spec.patternPixel Spec.ppuNat
  simp only [BitVec.getLsbD, Nat.toNat_testBit]
  rfl

/-! ## The background (R1031, R1046) -/

theorem clippedBg_iff (p : Ppu) (sx : Nat) : clippedBg p sx = true ↔ sx < 8 ∧ p.mask.getLsbD 1 = false := by
  rw [clippedBg, Bool.and_eq_true, decide_eq_true_iff, Bool.not_eq_true']

/-- What a tile's pixel `p` makes of its column: opaque with its palette entry, or as it was. -/
def bgPaint (s : State) (t : Row8 × Nat) (sx p : Nat) (px : Pixel) : Pixel :=
  if clippedBg s.ppu sx ∨ colourIndex t.1 p = 0 then px
  else { px with colour := s.ppu.pal.read (4 * t.2 + colourIndex t.1 p), bgOpaque := true }

theorem bgPixel_column {sx : Nat} (h : sx < 256) (k : Nat) (t : Row8 × Nat) (s : State) (row : Line) (p : Nat) :
    (bgPixel k t s row p)[sx]? =
      if sx + s.ppu.x.toNat = 8 * k + p then row[sx]?.map (bgPaint s t sx p) else row[sx]? := by
  unfold bgPixel
  dsimp only
  by_cases here : sx + s.ppu.x.toNat = 8 * k + p
  · rw [if_neg (by omega), if_pos here, show 8 * k + p - s.ppu.x.toNat = sx by omega]
    exact getElem?_modify_unless h row _
  · rw [if_neg here]
    split_ifs with left out
    · rfl
    · rfl
    · exact List.getElem?_modify_ne _ _ (by omega)

/-! ### The tile that v names -/

theorem attribute_address (v : BitVec 15) :
    0x23C0 ||| (v.toNat &&& 0x0C00) ||| ((v.toNat >>> 4) &&& 0x38) ||| ((v.toNat >>> 2) &&& 0x07) =
      0x23C0 + 1024 * Spec.ntSelect v + 8 * (Spec.coarseY v / 4) + Spec.coarseX v / 4 := by
  have table : v.toNat &&& 0x0C00 = 1024 * Spec.ntSelect v :=
    (and_fieldMask v.toNat 10 2).trans (Nat.mul_comm _ _)
  have y : (v.toNat >>> 4) &&& 0x38 = 8 * (Spec.coarseY v / 4) := by
    rw [Nat.shiftRight_eq_div_pow, Spec.coarseY]; exact (and_fieldMask _ 3 3).trans (by omega)
  have x : (v.toNat >>> 2) &&& 0x07 = Spec.coarseX v / 4 := by
    rw [Nat.shiftRight_eq_div_pow, Spec.coarseX]; exact (Nat.and_two_pow_sub_one_eq_mod _ 3).trans (by omega)
  have disjoint : ∀ nt < 4, ∀ y < 8, ∀ x < 8,
      0x23C0 ||| 1024 * nt ||| 8 * y ||| x = 0x23C0 + 1024 * nt + 8 * y + x := by decide
  rw [table, y, x]
  exact disjoint _ (Nat.mod_lt _ (by decide)) _ (by unfold Spec.coarseY; omega) _ (by unfold Spec.coarseX; omega)

theorem attribute_shift (v : BitVec 15) : ((v.toNat >>> 4) &&& 0x04) ||| (v.toNat &&& 0x02) =
    4 * (Spec.coarseY v / 2 % 2) + 2 * (Spec.coarseX v / 2 % 2) := by
  have y : (v.toNat >>> 4) &&& 0x04 = 4 * (Spec.coarseY v / 2 % 2) := by
    rw [Nat.shiftRight_eq_div_pow, Spec.coarseY]; exact (and_fieldMask _ 2 1).trans (by omega)
  have x : v.toNat &&& 0x02 = 2 * (Spec.coarseX v / 2 % 2) := by
    rw [Spec.coarseX]; exact (and_fieldMask _ 1 1).trans (by omega)
  have disjoint : ∀ y < 2, ∀ x < 2, 4 * y ||| 2 * x = 4 * y + 2 * x := by decide
  rw [y, x]
  exact disjoint _ (Nat.mod_lt _ (by decide)) _ (Nat.mod_lt _ (by decide))

theorem bgTile_palette (s : State) : (bgTile s).2 = Spec.tilePalette s.ppu.v s := by
  have low (n : Nat) : n &&& 0x03 = n % 4 := Nat.and_two_pow_sub_one_eq_mod n 2
  unfold bgTile Spec.tilePalette Spec.ppuNat
  dsimp only
  rw [attribute_address, attribute_shift, Nat.shiftRight_eq_div_pow, low]

theorem bgTile_pixel (s : State) (p : Nat) :
    colourIndex (bgTile s).1 p = Spec.patternPixel (Spec.tileRow s.ppu.v s) p s := by
  have fineY : (s.ppu.v.toNat >>> 12) &&& 0x07 = Spec.fineY s.ppu.v := by
    rw [Nat.shiftRight_eq_div_pow, Spec.fineY]; exact (Nat.and_two_pow_sub_one_eq_mod _ 3).trans (by omega)
  have table : (if s.ppu.ctrl.getLsbD 4 then 0x1000 else 0) = 4096 * (s.ppu.ctrl.getLsbD 4).toNat := by
    cases s.ppu.ctrl.getLsbD 4 <;> rfl
  unfold bgTile Spec.tileRow
  dsimp only
  rw [colourIndex_patternRow, fineY, table]
  rfl

/-! ### The line of tiles -/

/-- The state with v at the `k`-th tile of the line. -/
def atTile (k : Nat) (s : State) : State := { s with ppu := { s.ppu with v := Spec.tiledV k s.ppu.v } }

/-- `k` tiles: v has passed them, and each column that falls in them has its pixel of its tile. -/
theorem foldl_bgStep {sx : Nat} (h : sx < 256) (row : Line) (s : State) (k : Nat) :
    ((List.range k).foldl bgStep (row, s)).2 = atTile k s ∧
    ((List.range k).foldl bgStep (row, s)).1[sx]? =
      if sx + s.ppu.x.toNat < 8 * k then
        row[sx]?.map (bgPaint s (bgTile (atTile ((sx + s.ppu.x.toNat) / 8) s)) sx ((sx + s.ppu.x.toNat) % 8))
      else row[sx]? := by
  induction k with
  | zero => exact ⟨rfl, (if_neg (by omega)).symm⟩
  | succ k ih =>
    obtain ⟨passed, drawn⟩ := ih
    rw [List.range_succ, List.foldl_append, List.foldl_cons, List.foldl_nil]
    generalize (List.range k).foldl bgStep (row, s) = acc at passed drawn
    obtain ⟨before, u⟩ := acc
    dsimp only at passed drawn
    subst passed
    refine ⟨rfl, ?_⟩
    have tile : ((List.range 8).foldl (bgPixel k (bgTile (atTile k s)) (atTile k s)) before)[sx]? =
        if 8 * k ≤ sx + s.ppu.x.toNat ∧ sx + s.ppu.x.toNat < 8 * k + 8 then
          before[sx]?.map (bgPaint s (bgTile (atTile k s)) sx (sx + s.ppu.x.toNat - 8 * k))
        else before[sx]? :=
      foldl_columns (bgPixel_column h k _ (atTile k s)) 8 before
    refine tile.trans ?_
    rw [drawn]
    by_cases earlier : sx + s.ppu.x.toNat < 8 * k
    · rw [if_neg (by omega), if_pos earlier, if_pos (by omega)]
    · rw [if_neg earlier]
      by_cases now : sx + s.ppu.x.toNat < 8 * k + 8
      · rw [if_pos (by omega), if_pos (by omega), show (sx + s.ppu.x.toNat) / 8 = k by omega,
          show (sx + s.ppu.x.toNat) % 8 = sx + s.ppu.x.toNat - 8 * k by omega]
      · rw [if_neg (by omega), if_neg (by omega)]

/-- Settles O51: 33 tiles cover 256 columns from every fine X on (`foldl_bgStep`). -/
theorem backgroundPixelsComeFromTheirTiles : Obligations.BackgroundPixelsComeFromTheirTiles := by
  intro s sx backdrop h
  obtain ⟨passed, drawn⟩ := foldl_bgStep h
    (List.replicate 256 { colour := backdrop, bgOpaque := false, sprOcc := false }) s 33
  refine ⟨drawn.trans ?_, passed⟩
  have fine : s.ppu.x.toNat < 8 := s.ppu.x.isLt
  rw [if_pos (by omega), List.getElem?_replicate_of_lt h, Option.map_some, bgPaint, bgTile_pixel, bgTile_palette]
  refine congrArg some (if_congr ?_ rfl rfl)
  rw [clippedBg_iff]
  exact or_comm

/-! ## The sprites (R1040-R1042, R1046) -/

theorem clippedSp_iff (p : Ppu) (sx : Nat) : clippedSp p sx = true ↔ sx < 8 ∧ p.mask.getLsbD 2 = false := by
  rw [clippedSp, Bool.and_eq_true, decide_eq_true_iff, Bool.not_eq_true']

/-! ### The pattern row (R1042) -/

theorem getLsbD_iff (b : Byte) (k : Nat) : b.getLsbD k = true ↔ b.toNat / 2 ^ k % 2 = 1 := by
  rw [← bitOf_eq, Spec.bitOf, decide_eq_true_iff]

section

variable (s : State) (i r p : Nat)

theorem flipRow_eq (height : Nat) : (if (spriteAt i s.ppu).attr.getLsbD 7 then height - 1 - r else r) =
    if Spec.oamNat i 2 s / 128 % 2 = 1 then height - 1 - r else r :=
  if_congr (getLsbD_iff _ 7) rfl rfl

theorem spriteRow_pixel_of_8 (h : s.ppu.ctrl.getLsbD 5 = false) :
    colourIndex (spriteRow (spriteAt i s.ppu) r (spriteHeight s.ppu) s) p =
      Spec.patternPixel (Spec.spritePattern i r s) p s := by
  have height : spriteHeight s.ppu = 8 := by rw [spriteHeight, h]; rfl
  have table : (if s.ppu.ctrl.getLsbD 3 then 0x1000 else 0) = 4096 * (s.ppu.ctrl.getLsbD 3).toNat := by
    cases s.ppu.ctrl.getLsbD 3 <;> rfl
  unfold spriteRow Spec.spritePattern
  dsimp only
  rw [height, h, flipRow_eq, if_pos rfl, colourIndex_patternRow, table]
  rfl

theorem spriteRow_pixel_of_16 (h : s.ppu.ctrl.getLsbD 5 = true) (hr : r < 16) :
    colourIndex (spriteRow (spriteAt i s.ppu) r (spriteHeight s.ppu) s) p =
      Spec.patternPixel (Spec.spritePattern i r s) p s := by
  have height : spriteHeight s.ppu = 16 := by rw [spriteHeight, h]; rfl
  have tile : (spriteAt i s.ppu).tile = Spec.oamNat i 1 s := rfl
  unfold spriteRow Spec.spritePattern
  dsimp only
  rw [height, h, flipRow_eq, if_neg (by decide), if_pos rfl, colourIndex_patternRow, tile]
  have inRange : (if Spec.oamNat i 2 s / 128 % 2 = 1 then 16 - 1 - r else r) < 16 := by split_ifs <;> omega
  generalize (if Spec.oamNat i 2 s / 128 % 2 = 1 then 16 - 1 - r else r) = r' at inRange ⊢
  have address : (if Spec.oamNat i 1 s % 2 = 1 then 0x1000 else 0) +
      16 * (Spec.oamNat i 1 s / 2 * 2 + if 8 ≤ r' then 1 else 0) + r' % 8 =
      4096 * (Spec.oamNat i 1 s % 2) + 16 * (Spec.oamNat i 1 s / 2 * 2 + r' / 8) + r' % 8 := by
    split_ifs <;> omega
  rw [address]

theorem spriteOnLine_eq (n : Nat) : spriteOnLine (spriteAt i s.ppu) n s =
    if Spec.oamNat i 0 s + 1 ≤ n ∧ n < Spec.oamNat i 0 s + 1 + spriteHeight s.ppu then
      some (spriteRow (spriteAt i s.ppu) (n - (Spec.oamNat i 0 s + 1)) (spriteHeight s.ppu) s) else none :=
  have covered : Spec.oamNat i 0 s + 1 ≤ n ∧ n - (Spec.oamNat i 0 s + 1) < spriteHeight s.ppu ↔
      Spec.oamNat i 0 s + 1 ≤ n ∧ n < Spec.oamNat i 0 s + 1 + spriteHeight s.ppu := by omega
  if_congr covered rfl rfl

theorem spriteRow_pixel (hr : r < spriteHeight s.ppu) :
    colourIndex (spriteRow (spriteAt i s.ppu) r (spriteHeight s.ppu) s) p =
      Spec.patternPixel (Spec.spritePattern i r s) p s := by
  cases h : s.ppu.ctrl.getLsbD 5 with
  | false => exact spriteRow_pixel_of_8 s i r p h
  | true => exact spriteRow_pixel_of_16 s i r p h (by rw [spriteHeight, h] at hr; exact hr)

theorem flipColumn_eq (col : Nat) : flipColumn (spriteAt i s.ppu).attr col =
    if Spec.oamNat i 2 s / 64 % 2 = 1 then 7 - col else col :=
  if_congr (getLsbD_iff _ 6) rfl rfl

theorem behind_eq : Spec.behind i s = (spriteAt i s.ppu).attr.getLsbD 5 :=
  bitOf_eq _ 5

end

/-! ### One entry -/

/-- What an opaque pixel of OAM entry `i` makes of its column: the first one claims it (R1040). -/
def claim (s : State) (i c : Nat) (px : Pixel) : Pixel :=
  if px.sprOcc then px
  else if Spec.behind i s = true ∧ px.bgOpaque = true then { px with sprOcc := true }
  else { px with sprOcc := true, colour := Spec.spriteByte i c s }

/-- What an entry makes of a column where its colour index is `c`. -/
def spritePaint (s : State) (i sx c : Nat) (px : Pixel) : Pixel :=
  if c = 0 ∨ clippedSp s.ppu sx then px else claim s i c px

theorem spritePixel_column {sx : Nat} (h : sx < 256) (i : Nat) (r : Row8) (s : State) (row : Line) (col : Nat) :
    (spritePixel (spriteAt i s.ppu) r s.ppu row col)[sx]? =
      if sx = Spec.oamNat i 3 s + col then
        row[sx]?.map (spritePaint s i sx (colourIndex r (flipColumn (spriteAt i s.ppu).attr col)))
      else row[sx]? := by
  have left : (spriteAt i s.ppu).x = Spec.oamNat i 3 s := rfl
  unfold spritePixel
  dsimp only
  rw [left]
  by_cases here : sx = Spec.oamNat i 3 s + col
  · rw [← here, if_pos rfl]
    refine (getElem?_modify_unless h row _).trans (congrArg (Option.map · row[sx]?) (funext fun px => ?_))
    unfold spritePaint claim
    simp only [behind_eq, Bool.and_eq_true]
    rfl
  · rw [if_neg here]
    split_ifs
    · rfl
    · exact List.getElem?_modify_ne _ _ (Ne.symm here)

theorem spritePaint_zero (s : State) (i sx : Nat) : spritePaint s i sx 0 = id := funext fun _ => if_pos (.inl rfl)

theorem spriteStep_column {sx : Nat} (h : sx < 256) (n i : Nat) (s : State) (row : Line) :
    (spriteStep n s row i)[sx]? = row[sx]?.map (spritePaint s i sx (Spec.spriteColour i n sx s)) := by
  have height : (if s.ppu.ctrl.getLsbD 5 then 16 else 8) = spriteHeight s.ppu := rfl
  unfold spriteStep Spec.spriteColour
  dsimp only
  rw [spriteOnLine_eq, height]
  by_cases covered : Spec.oamNat i 0 s + 1 ≤ n ∧ n < Spec.oamNat i 0 s + 1 + spriteHeight s.ppu
  · rw [if_pos covered]
    refine (foldl_columns (spritePixel_column h i _ s) 8 row).trans ?_
    by_cases within : Spec.oamNat i 3 s ≤ sx ∧ sx < Spec.oamNat i 3 s + 8
    · rw [if_pos within, if_pos ⟨covered.1, covered.2, within⟩, flipColumn_eq, spriteRow_pixel _ _ _ _ (by omega)]
    · rw [if_neg within, if_neg fun c => within c.2.2, spritePaint_zero, Option.map_id, id]
  · rw [if_neg covered, if_neg fun c => covered ⟨c.1, c.2.1⟩, spritePaint_zero, Option.map_id, id]

/-! ### All entries -/

/-- A clipped column keeps its pixel. -/
theorem foldl_spriteStep_clipped {sx : Nat} (h : sx < 256) {s : State} (clipped : clippedSp s.ppu sx = true) (n : Nat)
    (l : List Nat) (row : Line) : (l.foldl (spriteStep n s) row)[sx]? = row[sx]? := by
  induction l generalizing row with
  | nil => rfl
  | cons i l ih =>
    have unpainted : spritePaint s i sx (Spec.spriteColour i n sx s) = id := funext fun px => if_pos (.inr clipped)
    rw [List.foldl_cons, ih, spriteStep_column h, unpainted, Option.map_id, id]

theorem claim_of_sprOcc {px : Pixel} (h : px.sprOcc = true) (s : State) (i c : Nat) : claim s i c px = px := if_pos h

theorem sprOcc_claim (s : State) (i c : Nat) (px : Pixel) : (claim s i c px).sprOcc = true := by
  unfold claim
  split_ifs with claimed
  · exact claimed
  · rfl
  · rfl

/-- What the first opaque entry of `l` makes of the column: it claims it. -/
def claimFirst (n sx : Nat) (s : State) (l : List Nat) (px : Pixel) : Pixel :=
  match l.find? (fun i => Spec.spriteColour i n sx s != 0) with
  | none => px
  | some i => claim s i (Spec.spriteColour i n sx s) px

/-- A claimed column is left to its claimant. -/
theorem claimFirst_of_sprOcc {px : Pixel} (h : px.sprOcc = true) (n sx : Nat) (s : State) (l : List Nat) :
    claimFirst n sx s l px = px := by
  unfold claimFirst
  split
  · rfl
  · exact claim_of_sprOcc h s _ _

/-- The first entry of the list claims the column if it is opaque there, else the rest of the list decides. -/
theorem claimFirst_cons {sx : Nat} {s : State} (visible : ¬ clippedSp s.ppu sx = true) (n i : Nat) (l : List Nat)
    (px : Pixel) : claimFirst n sx s (i :: l) px =
      claimFirst n sx s l (spritePaint s i sx (Spec.spriteColour i n sx s) px) := by
  by_cases transparent : Spec.spriteColour i n sx s = 0
  · rw [transparent, spritePaint_zero, id, claimFirst, List.find?_cons_of_neg (by simp [transparent]), claimFirst]
  · have painted : spritePaint s i sx (Spec.spriteColour i n sx s) px = claim s i (Spec.spriteColour i n sx s) px :=
      if_neg (not_or.2 ⟨transparent, visible⟩)
    rw [painted, claimFirst_of_sprOcc (sprOcc_claim s i _ px), claimFirst,
      List.find?_cons_of_pos (by simp [transparent])]

theorem foldl_spriteStep {sx : Nat} (h : sx < 256) {s : State} (visible : ¬ clippedSp s.ppu sx = true) (n : Nat)
    (l : List Nat) (row : Line) :
    (l.foldl (spriteStep n s) row)[sx]? = row[sx]?.map (claimFirst n sx s l) := by
  induction l generalizing row with
  | nil => exact Option.map_id'.symm
  | cons i l ih =>
    rw [List.foldl_cons, ih, spriteStep_column h, Option.map_map]
    refine congrArg (Option.map · row[sx]?) (funext fun px => ?_)
    exact (claimFirst_cons visible n i l px).symm

/-- Settles O52. -/
theorem firstSpriteInOamOrderWins : Obligations.FirstSpriteInOamOrderWins := by
  intro n sx row px s hpx h free
  have clip := clippedSp_iff s.ppu sx
  unfold renderSprites
  by_cases clipped : clippedSp s.ppu sx = true
  · rw [foldl_spriteStep_clipped h clipped, if_pos (clip.1 clipped), hpx]
  · rw [foldl_spriteStep h clipped, if_neg (mt clip.2 clipped), hpx, Option.map_some]
    unfold claimFirst Spec.firstSprite
    cases (List.range 64).find? (fun i => Spec.spriteColour i n sx s != 0) with
    | none => rfl
    | some i => dsimp only; rw [claim, free]; rfl

end Sys2Proof.Machine

/-!
PROOFS of the families 81_apu.md, 82_io_decoder_and_frame.md and 83_mapper.md (O54, O55, O56, O57, O35, O36, O50, O53,
O42, O58, O59, O60).
-/

namespace Sys2Proof.Machine

/-! ## The APU's ports (R1101, R1102, R1170) -/

/-- The status flags lie in different bits, so that their "or" is the sum. -/
theorem status_eq_ofNat (u : Apu) : u.status = BitVec.ofNat 8
    ((decide (u.pulse1.length ≠ 0)).toNat + 2 * (decide (u.pulse2.length ≠ 0)).toNat +
      4 * (decide (u.triangle.length ≠ 0)).toNat + 8 * (decide (u.noise.length ≠ 0)).toNat +
      16 * (decide (u.dmc.bytesLeft ≠ 0)).toNat + 128 * u.dmc.irq.toNat) := by
  have bits : ∀ p1 p2 t n d irq : Bool,
      (if p1 then 1#8 <<< 0 else 0) ||| (if p2 then 1#8 <<< 1 else 0) ||| (if t then 1#8 <<< 2 else 0) |||
        (if n then 1#8 <<< 3 else 0) ||| (if d then 1#8 <<< 4 else 0) ||| (if irq then 1#8 <<< 7 else 0) =
      BitVec.ofNat 8 (p1.toNat + 2 * p2.toNat + 4 * t.toNat + 8 * n.toNat + 16 * d.toNat + 128 * irq.toNat) := by
    decide
  have nonzero {w : Nat} (l : BitVec w) : (l != 0) = decide (l ≠ 0) := by
    rw [Bool.eq_iff_iff, bne_iff_ne, decide_eq_true_iff]
  unfold Apu.status
  simp only [nonzero]
  exact bits _ _ _ _ _ _

/-- Settles O54: the queue is none of the status. -/
theorem apuWritesWaitInTheQueue : Obligations.ApuWritesWaitInTheQueue := by
  intro a d s port
  obtain ⟨-, -, queue, -⟩ := busWritesFollowTheMap a d s
  have queued : busWrite a d s = apuEnqueue a d s := by
    refine queue (port.imp_left fun range => ?_)
    simp only [BitVec.le_def]
    exact range
  have status (t : State) : busRead 0x4015 t = (t.apu.status, t) := rfl
  rw [queued, status, status]
  exact ⟨rfl, rfl, status_eq_ofNat s.apu⟩

/-! ## The applied writes in numbers (R1103, R1105) -/

/-! ### Fields of a byte -/

theorem extractLsb'_zero_eq (d : Byte) (n : Nat) : d.extractLsb' 0 n = BitVec.ofNat n d.toNat := by
  rw [BitVec.extractLsb', Nat.shiftRight_zero]

theorem extractLsb'_eq (d : Byte) (k n : Nat) : d.extractLsb' k n = BitVec.ofNat n (d.toNat / 2 ^ k) := by
  rw [BitVec.extractLsb', Nat.shiftRight_eq_div_pow]

/-! ### Periods -/

theorem periodLow_eq (p : BitVec 11) (d : Byte) : periodLow p d = Spec.lowPeriod d p := by
  have high : p &&& 0x700#11 = BitVec.ofNat 11 (2 ^ 8 * (p.toNat / 256)) := by
    have masked : (p &&& 0x700#11).toNat = p.toNat / 2 ^ 8 % 2 ^ 3 * 2 ^ 8 := and_fieldMask p.toNat 8 3
    apply BitVec.eq_of_toNat_eq
    rw [masked, BitVec.toNat_ofNat]
    omega
  have joined : 2 ^ 8 * (p.toNat / 256) ||| d.toNat = p.toNat / 256 * 256 + d.toNat := by
    rw [← Nat.two_pow_add_eq_or_of_lt d.isLt]; omega
  rw [periodLow, Spec.lowPeriod, high, ← BitVec.ofNat_toNat, ← BitVec.ofNat_or, joined]

theorem periodHigh_eq (p : BitVec 11) (d : Byte) : periodHigh p d = Spec.highPeriod d p := by
  have low : p &&& 0x0FF#11 = BitVec.ofNat 11 (p.toNat % 256) := by
    have masked : (p &&& 0x0FF#11).toNat = p.toNat % 256 := Nat.and_two_pow_sub_one_eq_mod p.toNat 8
    rw [← masked, BitVec.ofNat_toNat, BitVec.setWidth_eq]
  have high : (d &&& 0x07).setWidth 11 <<< 8 = BitVec.ofNat 11 (2 ^ 8 * (d.toNat % 8)) := by
    have masked : (d &&& 0x07).toNat = d.toNat % 8 := Nat.and_two_pow_sub_one_eq_mod d.toNat 3
    apply BitVec.eq_of_toNat_eq
    rw [BitVec.toNat_shiftLeft, BitVec.toNat_setWidth, masked, Nat.shiftLeft_eq, BitVec.toNat_ofNat]
    omega
  have small : p.toNat % 256 < 2 ^ 8 := by omega
  rw [periodHigh, Spec.highPeriod, low, high, BitVec.or_comm, ← BitVec.ofNat_or,
    ← Nat.two_pow_add_eq_or_of_lt small, Nat.mul_comm]

/-! ### Registers -/

theorem lengthLoad_eq (enabled : Bool) (l d : Byte) : lengthLoad enabled l d = Spec.loadedLength enabled d l := rfl

/-- The four registers of a pulse channel. -/
theorem pulseWrite_eq {k : Nat} (hk : k < 4) (d : Byte) (p : Pulse) : p.write k d = Spec.pulseWritten k d p := by
  interval_cases k
  · simp [Pulse.write, Spec.pulseWritten, bitOf_eq, extractLsb'_eq]
  · simp [Pulse.write, Spec.pulseWritten, bitOf_eq, extractLsb'_eq]
  · simp [Pulse.write, Spec.pulseWritten, periodLow_eq]
  · simp [Pulse.write, Spec.pulseWritten, periodHigh_eq, lengthLoad_eq]

theorem sampleAddress_eq (d : Byte) : 0xC000 + (d.setWidth 16 <<< 6) = BitVec.ofNat 16 (0xC000 + 64 * d.toNat) := by
  apply BitVec.eq_of_toNat_eq
  rw [BitVec.toNat_add, BitVec.toNat_shiftLeft, BitVec.toNat_setWidth, Nat.shiftLeft_eq, BitVec.toNat_ofNat]
  simp
  omega

theorem sampleLength_eq (d : Byte) : (d.setWidth 12 <<< 4) + 1 = BitVec.ofNat 12 (16 * d.toNat + 1) := by
  apply BitVec.eq_of_toNat_eq
  rw [BitVec.toNat_add, BitVec.toNat_shiftLeft, BitVec.toNat_setWidth, Nat.shiftLeft_eq, BitVec.toNat_ofNat]
  simp
  omega

theorem dmcEnable_eq (en : Bool) (c : Dmc) : c.enable en = { c with
    irq := false
    bytesLeft := if en = false then 0 else if c.bytesLeft = 0 then c.lenLatch else c.bytesLeft
    addr := if en = true ∧ c.bytesLeft = 0 then c.addrLatch else c.addr } := by
  unfold Dmc.enable
  cases en
  · rfl
  · by_cases none : c.bytesLeft = 0
    · simp [none]
    · have some : ¬ c.bytesLeft = 0#12 := none
      simp [some]

/-! ### Ports -/

theorem port_toNat {p : Nat} (h : p < 0x10000) : (BitVec.ofNat 16 p).toNat = p := by
  rw [BitVec.toNat_ofNat]; exact Nat.mod_eq_of_lt h

section

variable {k : Nat} (hk : k < 4) (ts : Nat) (d : Byte) (u : Apu)
include hk

theorem apply_pulse1 : Apu.apply { ts := ts, addr := BitVec.ofNat 16 (0x4000 + k), val := d } u =
    { u with pulse1 := u.pulse1.write k d } := by
  unfold Apu.apply
  dsimp only
  rw [port_toNat (by omega), Nat.add_sub_cancel_left, if_neg (by omega), if_pos (by omega)]

theorem apply_pulse2 : Apu.apply { ts := ts, addr := BitVec.ofNat 16 (0x4004 + k), val := d } u =
    { u with pulse2 := u.pulse2.write k d } := by
  unfold Apu.apply
  dsimp only
  rw [port_toNat (by omega), Nat.add_sub_cancel_left, if_neg (by omega), if_neg (by omega), if_pos (by omega)]

theorem apply_triangle : Apu.apply { ts := ts, addr := BitVec.ofNat 16 (0x4008 + k), val := d } u =
    { u with triangle := u.triangle.write k d } := by
  unfold Apu.apply
  dsimp only
  rw [port_toNat (by omega), Nat.add_sub_cancel_left, if_neg (by omega), if_neg (by omega), if_neg (by omega),
    if_pos (by omega)]

theorem apply_noise : Apu.apply { ts := ts, addr := BitVec.ofNat 16 (0x400C + k), val := d } u =
    { u with noise := u.noise.write k d } := by
  unfold Apu.apply
  dsimp only
  rw [port_toNat (by omega), Nat.add_sub_cancel_left, if_neg (by omega), if_neg (by omega), if_neg (by omega),
    if_neg (by omega), if_pos (by omega)]

theorem apply_dmc : Apu.apply { ts := ts, addr := BitVec.ofNat 16 (0x4010 + k), val := d } u =
    { u with dmc := u.dmc.write k d } := by
  unfold Apu.apply
  dsimp only
  rw [port_toNat (by omega), Nat.add_sub_cancel_left, if_neg (by omega), if_neg (by omega), if_neg (by omega),
    if_neg (by omega), if_neg (by omega), if_pos (by omega)]

end

theorem apply_status (ts : Nat) (d : Byte) (u : Apu) :
    Apu.apply { ts := ts, addr := BitVec.ofNat 16 0x4015, val := d } u = u.statusWrite d := by
  unfold Apu.apply
  dsimp only
  rw [port_toNat (by decide), if_neg (by decide), if_neg (by decide), if_neg (by decide), if_neg (by decide),
    if_neg (by decide), if_neg (by decide), if_pos (by decide)]

theorem apply_frameLatch (ts : Nat) (d : Byte) (u : Apu) :
    Apu.apply { ts := ts, addr := BitVec.ofNat 16 0x4017, val := d } u = { u with frameLatch := d } := by
  unfold Apu.apply
  dsimp only
  rw [port_toNat (by decide), if_neg (by decide), if_neg (by decide), if_neg (by decide), if_neg (by decide),
    if_neg (by decide), if_neg (by decide), if_neg (by decide), if_pos (by decide)]

/-- Settles O55: port by port, each field in numbers. -/
theorem appliedWritesSetTheirChannels : Obligations.AppliedWritesSetTheirChannels := by
  refine ⟨rfl, fun u d ts => ?_⟩
  have triangle (k : Nat) (hk : k < 4) := apply_triangle hk ts d u
  have noise (k : Nat) (hk : k < 4) := apply_noise hk ts d u
  have dmc (k : Nat) (hk : k < 4) := apply_dmc hk ts d u
  refine ⟨fun k hk => ?pulse, (triangle 0 (by decide)).trans ?w4008, triangle 1 (by decide),
    (triangle 2 (by decide)).trans ?w400A, (triangle 3 (by decide)).trans ?w400B, (noise 0 (by decide)).trans ?w400C,
    noise 1 (by decide), (noise 2 (by decide)).trans ?w400E, (noise 3 (by decide)).trans ?w400F,
    (dmc 0 (by decide)).trans ?w4010, (dmc 1 (by decide)).trans ?w4011, (dmc 2 (by decide)).trans ?w4012,
    (dmc 3 (by decide)).trans ?w4013, (apply_status ts d u).trans ?w4015, apply_frameLatch ts d u⟩
  case pulse =>
    rw [← pulseWrite_eq hk, ← pulseWrite_eq hk]
    exact ⟨apply_pulse1 hk ts d u, apply_pulse2 hk ts d u⟩
  case w4008 => rw [bitOf_eq, ← extractLsb'_zero_eq]; rfl
  case w400A => rw [← periodLow_eq]; rfl
  case w400B => rw [← periodHigh_eq, ← lengthLoad_eq]; rfl
  case w400C => rw [bitOf_eq, bitOf_eq, ← extractLsb'_zero_eq]; rfl
  case w400E => rw [bitOf_eq, ← extractLsb'_zero_eq]; rfl
  case w400F => rw [← lengthLoad_eq]; rfl
  case w4010 =>
    have cleared : (if d.getLsbD 7 then u.dmc.irq else false) = (d.getLsbD 7 && u.dmc.irq) := by
      cases d.getLsbD 7 <;> rfl
    rw [bitOf_eq, bitOf_eq, ← extractLsb'_zero_eq, ← cleared]; rfl
  case w4011 => rw [bitOf_eq, ← pow_one 2, ← extractLsb'_eq]; rfl
  case w4012 => rw [← sampleAddress_eq]; rfl
  case w4013 => rw [← sampleLength_eq]; rfl
  case w4015 => rw [Apu.statusWrite, dmcEnable_eq]; simp only [bitOf_eq]; rfl

/-! ## The audio units (R1106, R1111, R1112, R1141, R1151, R1160) -/

/-- A bit above bit 0 moves down; the register 1 feeds a bit back to the top, as its taps 1 and 6 are clear. -/
theorem lfsrStep_ne_zero (mode : Bool) (l : BitVec 15) (alive : l ≠ 0) : lfsrStep mode l ≠ 0 := by
  intro dead
  obtain ⟨shifted, fed⟩ := BitVec.or_eq_zero_iff.mp dead
  have small : l.toNat / 2 = 0 := by
    rw [← pow_one 2, ← Nat.shiftRight_eq_div_pow, ← BitVec.toNat_ushiftRight, shifted]; rfl
  have one : l = 1 := by
    have nonzero : l.toNat ≠ 0 := fun h => alive (BitVec.eq_of_toNat_eq h)
    apply BitVec.eq_of_toNat_eq
    show l.toNat = 1
    omega
  subst one
  cases mode <;> exact absurd fed (by decide)

/-- A counter that is not 0 goes down by one. -/
theorem toNat_pred {w : Nat} {c : BitVec w} (running : c ≠ 0) : (c - 1).toNat = c.toNat - 1 := by
  have positive : 0 < c.toNat := Nat.pos_of_ne_zero fun zero => running (BitVec.eq_of_toNat_eq zero)
  have one : (1 : BitVec w).toNat = 1 :=
    (BitVec.toNat_ofNat _ _).trans (Nat.mod_eq_of_lt (lt_of_le_of_lt positive c.isLt))
  rw [BitVec.toNat_sub_of_le (BitVec.le_def.mpr (one ▸ positive)), one]

/-! ### The DMC -/

theorem shiftBit_of_running {c : Dmc} (running : c.bitsLeft ≠ 0) :
    c.shiftBit.counter.toNat =
        (if c.shift.toNat % 2 = 1 then min 63 (c.counter.toNat + 1) else c.counter.toNat - 1) ∧
      c.shiftBit.shift.toNat = c.shift.toNat / 2 ∧ c.shiftBit.bitsLeft.toNat = c.bitsLeft.toNat - 1 := by
  have up : (if c.counter = 63 then 63 else c.counter + 1).toNat = min 63 (c.counter.toNat + 1) := by
    split
    · next top => rw [top]; rfl
    · next below =>
      have room : c.counter.toNat ≠ 63 := fun top => below (BitVec.eq_of_toNat_eq top)
      rw [BitVec.toNat_add_of_lt (by simp; omega)]
      simp
      omega
  have down : (if c.counter = 0 then 0 else c.counter - 1).toNat = c.counter.toNat - 1 := by
    split
    · next bottom => rw [bottom]; rfl
    · next above => exact toNat_pred above
  have polarity : (c.shift.getLsbD 0 = true) = (c.shift.toNat % 2 = 1) := by
    rw [← bitOf_eq, Spec.bitOf, pow_zero, Nat.div_one, decide_eq_true_eq]
  have half : (c.shift >>> 1).toNat = c.shift.toNat / 2 := by
    rw [BitVec.toNat_ushiftRight, Nat.shiftRight_eq_div_pow, pow_one]
  rw [Dmc.shiftBit, if_neg running]
  refine ⟨?_, half, toNat_pred running⟩
  simp only [polarity]
  rw [apply_ite BitVec.toNat, up, down]

theorem dmcOut_le (c : Dmc) : c.out ≤ 127 := by
  have counter := c.counter.isLt
  have lsb := c.lsb.toNat_le
  unfold Dmc.out
  omega

/-! ### Length counters and envelopes -/

theorem lengthClock_toNat (halt : Bool) (l : Byte) :
    (lengthClock halt l).toNat = if halt then l.toNat else l.toNat - 1 := by
  cases halt
  case true => rfl
  case false =>
    by_cases done : l = 0
    · rw [done]; rfl
    · rw [lengthClock, if_neg (by simpa using done), if_neg Bool.false_ne_true, toNat_pred done]

theorem envelopeClock_decay {vol : BitVec 4} {loop : Bool} {e : Envelope} (running : e.start = false)
    (due : e.divider = 0) : (e.clock vol loop).decay.toNat =
      if 0 < e.decay.toNat then e.decay.toNat - 1 else if loop then 15 else 0 := by
  rw [Envelope.clock, if_neg (by rw [running]; decide), if_pos due]
  dsimp only
  by_cases silent : e.decay = 0
  · rw [if_neg (not_not.mpr silent), silent]
    cases loop <;> rfl
  · have positive : 0 < e.decay.toNat := Nat.pos_of_ne_zero fun zero => silent (BitVec.eq_of_toNat_eq zero)
    rw [if_pos silent, if_pos positive, toNat_pred silent]

theorem envelopeOut_le (constant : Bool) (vol : BitVec 4) (e : Envelope) : envelopeOut constant vol e ≤ 15 := by
  cases constant
  · exact Nat.le_of_lt_succ e.decay.isLt
  · exact Nat.le_of_lt_succ vol.isLt

/-! ### The sweep unit -/

theorem sweepClock_of_muted {p : Pulse} (muted : p.muted = true) : p.sweepClock.period = p.period :=
  if_neg (by simp [muted])

/-- A period that is not muted has its target in 11 bits. -/
theorem target_lt_of_not_muted {p : Pulse} (sounds : p.muted = false) : p.target < 2 ^ 11 := by
  rw [Pulse.muted, Bool.or_eq_false_iff, decide_eq_false_iff_not, decide_eq_false_iff_not] at sounds
  omega

theorem target_eq (p : Pulse) : p.target =
    if p.swNegate then p.period.toNat - p.period.toNat / 2 ^ p.swShift.toNat
    else p.period.toNat + p.period.toNat / 2 ^ p.swShift.toNat := by
  rw [Pulse.target, Nat.shiftRight_eq_div_pow]

theorem sweepClock_of_due {p : Pulse} (sounds : p.muted = false) (due : p.swDivider = 0) (on : p.swEnable = true)
    (shifts : p.swShift ≠ 0) : p.sweepClock.period.toNat = p.target := by
  have moves : p.sweepClock.period = BitVec.ofNat 11 p.target :=
    if_pos (by simp [sounds, due, on]; exact shifts)
  rw [moves, BitVec.toNat_ofNat, Nat.mod_eq_of_lt (target_lt_of_not_muted sounds)]

theorem pulseOut_of_muted {p : Pulse} (muted : p.muted = true) : p.out = 0 := if_pos (by simp [muted])

/-- Settles O57: unit by unit. -/
theorem audioUnitsStayInRange : Obligations.AudioUnitsStayInRange := by
  refine ⟨lfsrStep_ne_zero, fun c => shiftBit_of_running, dmcOut_le, lengthClock_toNat, fun vol loop e => ?_,
    fun p => ⟨sweepClock_of_muted, fun sounds due on shifts => ?_, pulseOut_of_muted⟩⟩
  · refine ⟨fun starts => ?_, envelopeClock_decay, fun constant => envelopeOut_le constant vol e⟩
    rw [Envelope.clock, if_pos starts]; rfl
  · rw [sweepClock_of_due sounds due on shifts, target_eq]

/-! ## The applied writes (R1103) -/

/-- The writes taken are the due ones at the front of the queue, whatever the APU's own queue holds. -/
theorem applyDue_eq (rate tk : Nat) (q : List DeferredWrite) (u : Apu) :
    Apu.applyDue rate tk q u =
      { (q.takeWhile (Spec.due rate tk)).foldl (fun v w => v.apply w) u with
        queue := q.dropWhile (Spec.due rate tk) } := by
  induction q generalizing u with
  | nil => rfl
  | cons w q ih =>
    unfold Apu.applyDue
    by_cases h : w.ts * rate ≤ tk
    · have reached : Spec.due rate tk w = true := decide_eq_true h
      rw [if_pos h, ih, List.takeWhile_cons_of_pos reached, List.dropWhile_cons_of_pos reached, List.foldl_cons]
    · have early : ¬ Spec.due rate tk w = true := fun reached => h (of_decide_eq_true reached)
      rw [if_neg h, List.takeWhile_cons_of_neg early, List.dropWhile_cons_of_neg early, List.foldl_nil]

/-! ## What synthesis leaves of the APU's setup -/

/-- `v` has the queue, the latched $4017 value and the channel enables of `u`. -/
structure SetupKept (u v : Apu) : Prop where
  queue : v.queue = u.queue
  frameLatch : v.frameLatch = u.frameLatch
  pulse1 : v.pulse1.enabled = u.pulse1.enabled
  pulse2 : v.pulse2.enabled = u.pulse2.enabled
  triangle : v.triangle.enabled = u.triangle.enabled
  noise : v.noise.enabled = u.noise.enabled

theorem SetupKept.refl (u : Apu) : SetupKept u u := ⟨rfl, rfl, rfl, rfl, rfl, rfl⟩

theorem SetupKept.trans {u v w : Apu} (h : SetupKept u v) (k : SetupKept v w) : SetupKept u w :=
  ⟨k.queue.trans h.queue, k.frameLatch.trans h.frameLatch, k.pulse1.trans h.pulse1, k.pulse2.trans h.pulse2,
    k.triangle.trans h.triangle, k.noise.trans h.noise⟩

/-- A clock of the sequencer moves envelopes, counters and sweeps. -/
theorem SetupKept.of_sequencerClock (u : Apu) : SetupKept u u.sequencerClock := by
  unfold Apu.sequencerClock
  cases u.half <;> exact ⟨rfl, rfl, rfl, rfl, rfl, rfl⟩

theorem SetupKept.of_sequencerClocks (n : Nat) (u : Apu) : SetupKept u (Apu.sequencerClocks n u) := by
  induction n generalizing u with
  | zero => exact .refl u
  | succ n ih => exact (SetupKept.of_sequencerClock u).trans (ih _)

theorem SetupKept.of_sequencerAdvance (p : Params) (u : Apu) : SetupKept u (u.sequencerAdvance p) := by
  have clocks := SetupKept.of_sequencerClocks ((u.facc + 240 * p.cpuClockHz) / (p.cpuClockHz * p.sampleRate)) u
  exact clocks.trans ⟨rfl, rfl, rfl, rfl, rfl, rfl⟩

theorem SetupKept.of_timers (c : Nat) (u : Apu) : SetupKept u (u.timers c) := by
  have pulse (p : Pulse) : (if (c + Config.pulsePhase) % 2 == 0 then p.tick else p).enabled = p.enabled := by
    unfold Pulse.tick; split_ifs <;> rfl
  have triangle : u.triangle.tick.enabled = u.triangle.enabled := by unfold Triangle.tick; split_ifs <;> rfl
  have noise : u.noise.tick.enabled = u.noise.enabled := by unfold Noise.tick; split_ifs <;> rfl
  exact ⟨rfl, rfl, pulse _, pulse _, triangle, noise⟩

/-! ## What the host's actions leave (R950) -/

/-- `t` is `s` but for what a host action can change: the CPU registers, the pending slot, `remaining`, the APU, what
a bus read can change and the stop flag. No action sets vblank, moves a pad index past 8 or queues a write. -/
structure HostFrame (s t : State) : Prop where
  state : t = { s with
    a := t.a, x := t.x, y := t.y, sp := t.sp, pc := t.pc, flags := t.flags, pending := t.pending
    remaining := t.remaining, apu := t.apu
    ppu := { s.ppu with v := t.ppu.v, w := t.ppu.w, rdbuf := t.ppu.rdbuf, vblank := t.ppu.vblank }
    pads := { s.pads with idx0 := t.pads.idx0, idx1 := t.pads.idx1 }
    frame := { s.frame with stop := t.frame.stop }
    draws := t.draws }
  vblank : s.ppu.vblank = false → t.ppu.vblank = false
  pads : s.pads.idx0 ≤ 8 ∧ s.pads.idx1 ≤ 8 → t.pads.idx0 ≤ 8 ∧ t.pads.idx1 ≤ 8
  queue : t.apu.queue.Sublist s.apu.queue

theorem HostFrame.refl (s : State) : HostFrame s s := ⟨rfl, id, id, .refl _⟩

theorem HostFrame.trans {s t u : State} (h : HostFrame s t) (k : HostFrame t u) : HostFrame s u := by
  refine ⟨?_, k.vblank ∘ h.vblank, k.pads ∘ h.pads, k.queue.trans h.queue⟩
  have state := k.state
  rw [h.state] at state
  exact state

/-- A read of $2002 clears vblank; no read sets it. -/
theorem busRead_vblank (a : Addr) {s : State} (h : s.ppu.vblank = false) : (busRead a s).2.ppu.vblank = false := by
  have port (p : Nat) : (ppuPortRead p s).2.ppu.vblank = false := by
    unfold ppuPortRead
    split_ifs
    · rfl
    all_goals exact h
  have io : (ioRead a s).2.ppu.vblank = false := by unfold ioRead; split_ifs <;> exact h
  unfold busRead
  split_ifs
  case pos => exact h
  case pos => exact port _
  case pos => exact io
  all_goals exact h

theorem HostFrame.of_busRead (a : Addr) (s : State) : HostFrame s (busRead a s).2 where
  state := by rw [busRead_state]
  vblank := busRead_vblank a
  pads := busRead_pads_le a s
  queue := by rw [busRead_apu]

theorem HostFrame.of_setApu {u : Apu} {s : State} (h : u.queue.Sublist s.apu.queue) : HostFrame s (s.setApu u) :=
  ⟨rfl, id, id, h⟩

theorem HostFrame.of_request (k : Interrupt) (s : State) : HostFrame s (request k s) := ⟨rfl, id, id, .refl _⟩

/-! ## Synthesis (R1103, R1104, R1151) -/

/-- What the channel timers leave: they work within `HostFrame`, and on no part of the setup. -/
structure TimersFrame (s t : State) : Prop where
  host : HostFrame s t
  setup : SetupKept s.apu t.apu

theorem TimersFrame.refl (s : State) : TimersFrame s s := ⟨.refl s, .refl _⟩

theorem TimersFrame.trans {s t u : State} (h : TimersFrame s t) (k : TimersFrame t u) : TimersFrame s u :=
  ⟨h.host.trans k.host, h.setup.trans k.setup⟩

theorem TimersFrame.of_busRead (a : Addr) (s : State) : TimersFrame s (busRead a s).2 :=
  ⟨.of_busRead a s, by rw [busRead_apu]; exact .refl _⟩

theorem TimersFrame.of_setApu {u : Apu} {s : State} (h : SetupKept s.apu u) : TimersFrame s (s.setApu u) :=
  ⟨.of_setApu (by rw [h.queue]), h⟩

theorem TimersFrame.of_setDmc (c : Dmc) (s : State) : TimersFrame s (s.setApu { s.apu with dmc := c }) :=
  .of_setApu ⟨rfl, rfl, rfl, rfl, rfl, rfl⟩

theorem TimersFrame.of_request (k : Interrupt) (s : State) : TimersFrame s (request k s) :=
  ⟨.of_request k s, .refl _⟩

/-- A fetch reads the bus and updates the DMC; the last byte of a sample may request IRQ. -/
theorem TimersFrame.of_dmcFetch (s : State) : TimersFrame s (dmcFetch s) := by
  have updates (c : Dmc) := (TimersFrame.of_busRead s.apu.dmc.addr s).trans (.of_setDmc c _)
  unfold dmcFetch
  dsimp only
  split
  · exact updates _
  split
  · exact updates _
  split
  · exact (updates _).trans (.of_request _ _)
  · exact updates _

theorem TimersFrame.of_dmcBit (s : State) : TimersFrame s (dmcBit s) := by
  have refills : TimersFrame s (if s.apu.dmc.bitsLeft ≠ 0 then s
      else if s.apu.dmc.bytesLeft ≠ 0 then dmcFetch s
      else s.setApu { s.apu with dmc := { s.apu.dmc with silent := true } }) := by
    split_ifs
    · exact .refl s
    · exact .of_dmcFetch s
    · exact .of_setDmc _ s
  exact refills.trans (.of_setDmc _ _)

theorem TimersFrame.of_dmcTick (s : State) : TimersFrame s (dmcTick s) := by
  unfold dmcTick
  dsimp only
  split_ifs
  · exact (TimersFrame.of_setDmc _ s).trans (.of_dmcBit _)
  · exact .of_setDmc _ s

theorem TimersFrame.of_apuCycles (n c : Nat) (s : State) : TimersFrame s (apuCycles n c s) := by
  induction n generalizing c s with
  | zero => exact .refl s
  | succ n ih => exact ((TimersFrame.of_setApu (.of_timers c s.apu)).trans (.of_dmcTick _)).trans (ih _ _)

/-- A sample, from the state in which its due writes are applied. -/
def writesApplied (s : State) : State :=
  s.setApu (Apu.applyDue s.params.sampleRate (s.apu.cursor + s.params.cpuClockHz) s.apu.queue s.apu)

theorem writesApplied_apu (s : State) : (writesApplied s).apu =
    Apu.applyDue s.params.sampleRate (s.apu.cursor + s.params.cpuClockHz) s.apu.queue s.apu := rfl

theorem writesApplied_queue (s : State) : (writesApplied s).apu.queue =
    s.apu.queue.dropWhile (Spec.due s.params.sampleRate (s.apu.cursor + s.params.cpuClockHz)) := by
  rw [writesApplied_apu, applyDue_eq]

/-- After the due writes, a sample works on no part of the setup. -/
theorem TimersFrame.of_synthSample (s : State) : TimersFrame (writesApplied s) (synthSample s) := by
  have advances := TimersFrame.of_setApu (SetupKept.of_sequencerAdvance s.params (writesApplied s).apu)
  have moves (tk : Nat) (t : State) : TimersFrame t (t.setApu { t.apu with cursor := tk }) :=
    .of_setApu ⟨rfl, rfl, rfl, rfl, rfl, rfl⟩
  exact (advances.trans (.of_apuCycles _ _ _)).trans (moves _ _)

theorem HostFrame.of_synthSample (s : State) : HostFrame s (synthSample s) := by
  have applied : HostFrame s (writesApplied s) :=
    .of_setApu (by rw [← writesApplied_apu, writesApplied_queue]; exact List.dropWhile_sublist _)
  exact applied.trans (TimersFrame.of_synthSample s).host

theorem HostFrame.of_synthSamples (n : Nat) (s : State) : HostFrame s (synthSamples n s).2 := by
  induction n generalizing s with
  | zero => exact .refl s
  | succ n ih => exact (HostFrame.of_synthSample s).trans (ih _)

theorem HostFrame.of_createSound (n : Nat) (s : State) : HostFrame s (createSound n s) :=
  (HostFrame.of_synthSamples n s).trans (.of_setApu (.refl _))

/-! ### A block of samples -/

theorem synthSample_cursor (s : State) : (synthSample s).apu.cursor = s.apu.cursor + s.params.cpuClockHz := rfl

theorem synthSample_queue (s : State) : (synthSample s).apu.queue =
    s.apu.queue.dropWhile (Spec.due s.params.sampleRate (s.apu.cursor + s.params.cpuClockHz)) :=
  (TimersFrame.of_synthSample s).setup.queue.trans (writesApplied_queue s)

theorem synthSample_params (s : State) : (synthSample s).params = s.params := by
  rw [(HostFrame.of_synthSample s).state]

theorem synthSamples_cursor (n : Nat) (s : State) :
    (synthSamples n s).2.apu.cursor = s.apu.cursor + n * s.params.cpuClockHz := by
  induction n generalizing s with
  | zero => rw [Nat.zero_mul]; rfl
  | succ n ih =>
    refine (ih (synthSample s)).trans ?_
    rw [synthSample_cursor, synthSample_params, Nat.succ_mul]; omega

theorem synthSamples_length (n : Nat) (s : State) : (synthSamples n s).1.length = n := by
  induction n generalizing s with
  | zero => rfl
  | succ n ih => exact congrArg (· + 1) (ih (synthSample s))

/-- What is due is due later too. -/
theorem due_mono {rate tk tk' : Nat} (h : tk ≤ tk') {w : DeferredWrite} (due : Spec.due rate tk w = true) :
    Spec.due rate tk' w = true :=
  decide_eq_true ((of_decide_eq_true due).trans h)

theorem dropWhile_dropWhile_of_imp {α : Type} {p q : α → Bool} (h : ∀ a, p a = true → q a = true) (l : List α) :
    (l.dropWhile p).dropWhile q = l.dropWhile q := by
  induction l with
  | nil => rfl
  | cons a l ih =>
    by_cases hp : p a = true
    · rw [List.dropWhile_cons_of_pos hp, List.dropWhile_cons_of_pos (h a hp), ih]
    · rw [List.dropWhile_cons_of_neg hp]

/-- The last sample's time decides what a block takes. -/
theorem synthSamples_queue (n : Nat) (s : State) : (synthSamples (n + 1) s).2.apu.queue =
    s.apu.queue.dropWhile (Spec.due s.params.sampleRate (s.apu.cursor + (n + 1) * s.params.cpuClockHz)) := by
  induction n generalizing s with
  | zero => rw [Nat.zero_add, Nat.one_mul]; exact synthSample_queue s
  | succ n ih =>
    refine (ih (synthSample s)).trans ?_
    have last : s.apu.cursor + s.params.cpuClockHz + (n + 1) * s.params.cpuClockHz =
        s.apu.cursor + (n + 1 + 1) * s.params.cpuClockHz := by rw [Nat.succ_mul (n + 1)]; omega
    rw [synthSample_queue, synthSample_cursor, synthSample_params, last]
    exact dropWhile_dropWhile_of_imp (fun w => due_mono (by rw [← last]; exact Nat.le_add_right _ _)) _

/-- Settles O56: sample by sample; a sample's setup is that of the writes taken (`TimersFrame.of_synthSample`). -/
theorem dueWritesApplyInOrder : Obligations.DueWritesApplyInOrder := by
  refine ⟨applyDue_eq, fun s => ?_, fun s n hn => ?_⟩
  · obtain ⟨-, frameLatch, pulse1, pulse2, triangle, noise⟩ := (TimersFrame.of_synthSample s).setup
    rw [writesApplied_apu, applyDue_eq] at frameLatch pulse1 pulse2 triangle noise
    exact ⟨synthSample_cursor s, synthSample_queue s, frameLatch, pulse1, pulse2, triangle, noise⟩
  · obtain ⟨n, rfl⟩ := Nat.exists_eq_add_one.2 hn
    exact ⟨synthSamples_cursor (n + 1) s, synthSamples_queue n s, synthSamples_length (n + 1) s⟩

/-! ## The host's actions at a point of a line (R950) -/

theorem HostFrame.of_hostEvent (s : State) (e : HostEvent) : HostFrame s (hostEvent s e) := by
  cases e with
  | createSound n => exact .of_createSound n s
  | requestReset => exact .of_request .reset s
  | reset =>
    rw [hostEvent, hostReset_eq]
    exact ⟨rfl, id, id, .refl _⟩
  | stop => exact ⟨rfl, id, id, .refl _⟩

theorem HostFrame.of_hostActs (p : HostPoint) (s : State) : HostFrame s (hostActs p s) := by
  unfold hostActs
  generalize Config.hostEvents s.frame.count s.frame.line p = events
  induction events generalizing s with
  | nil => exact .refl s
  | cons e events ih => exact (HostFrame.of_hostEvent s e).trans (ih _)

theorem hostActs_none {p : HostPoint} {s : State} (h : Config.hostEvents s.frame.count s.frame.line p = []) :
    hostActs p s = s := by
  unfold hostActs; rw [h]; rfl

theorem HostFrame.frame {s t : State} (h : HostFrame s t) : t.frame = { s.frame with stop := t.frame.stop } := by
  rw [h.state]

/-! ## The end of a line (R1250-R1252, R1261, R1262) -/

/-- Bits 7 and 6 both clear. -/
theorem bits76_clear (d : Byte) : (!d.getLsbD 7 && !d.getLsbD 6) = decide (d.toNat < 64) := by
  revert d; decide

theorem startVblank_eq (u : State) :
    startVblank u = { u with
      ppu := { u.ppu with vblank := true }
      pending := if u.ppu.ctrl.getLsbD 7 = true then some .nmi else u.pending } := by
  by_cases nmi : u.ppu.ctrl.getLsbD 7 = true
  · rw [if_pos nmi]; exact if_pos nmi
  · rw [if_neg nmi]; exact if_neg nmi

/-- The driver's own actions after a line's `run` call, in one update. -/
theorem afterLine_eq (u : State) :
    afterLine u = { u with
      ppu := { u.ppu with
        v := if u.frame.line ≤ 239 ∧ renderingEnabled u.ppu = true then incY u.ppu.v
          else if u.frame.line = 261 ∧ renderingEnabled u.ppu = true then u.ppu.t else u.ppu.v
        vblank := decide (u.frame.line = 240) || u.ppu.vblank }
      pending := if u.frame.line = 240 ∧ u.ppu.ctrl.getLsbD 7 = true then some .nmi else u.pending } := by
  unfold afterLine
  simp only [startVblank_eq]
  by_cases visible : u.frame.line ≤ 239
  · have not240 : ¬ u.frame.line = 240 := by omega
    have not261 : ¬ u.frame.line = 261 := by omega
    cases rendering : renderingEnabled u.ppu <;> simp [visible, not240, not261, rendering]
    rfl
  · by_cases at240 : u.frame.line = 240
    · simp [at240]
    · cases rendering : renderingEnabled u.ppu <;> simp [visible, at240, rendering]
      split_ifs <;> rfl

/-- The end of the frame, in one update. -/
theorem endFrame_eq (u : State) :
    endFrame u = { u with
      pending := if u.apu.frameLatch.toNat < 64 then some .irq else u.pending
      frame := { u.frame with
        display := u.frame.fb, count := u.frame.count + 1, line := 0
        phase := if u.frame.stop = true then .ended else .lineStart } } := by
  unfold endFrame frameEndIrq
  rw [bits76_clear]
  by_cases h : u.apu.frameLatch.toNat < 64 <;> simp [h] <;> rfl

/-- The end of a line, in one update of the state after the host's actions. -/
theorem endLine_eq {s u : State} (line : s.frame.line ≤ 261) (hu : u = hostActs .afterRun s) :
    endLine s = { u with
      ppu := { u.ppu with
        v := if s.frame.line ≤ 239 ∧ renderingEnabled u.ppu = true then incY u.ppu.v
          else if s.frame.line = 261 ∧ renderingEnabled u.ppu = true then u.ppu.t else u.ppu.v
        vblank := decide (s.frame.line = 240) || u.ppu.vblank }
      pending := if s.frame.line = 240 ∧ u.ppu.ctrl.getLsbD 7 = true then some .nmi
        else if s.frame.line = 261 ∧ u.apu.frameLatch.toNat < 64 then some .irq else u.pending
      frame := { u.frame with
        line := (s.frame.line + 1) % 262
        count := s.frame.count + (if s.frame.line = 261 then 1 else 0)
        display := if s.frame.line = 261 then s.frame.fb else s.frame.display
        phase := if s.frame.line = 261 ∧ u.frame.stop = true then .ended else .lineStart } } := by
  have frame : u.frame = { s.frame with stop := u.frame.stop } := by rw [hu]; exact (HostFrame.of_hostActs _ s).frame
  have uline : u.frame.line = s.frame.line := by rw [frame]
  have count : u.frame.count = s.frame.count := by rw [frame]
  have fb : u.frame.fb = s.frame.fb := by rw [frame]
  have display : u.frame.display = s.frame.display := by rw [frame]
  unfold endLine
  dsimp only
  rw [← hu, afterLine_eq]
  dsimp only
  rw [uline]
  by_cases last : s.frame.line = 261
  · rw [if_pos last, endFrame_eq]
    simp [last, count, fb]
  · have next : (s.frame.line + 1) % 262 = s.frame.line + 1 := Nat.mod_eq_of_lt (by omega)
    rw [if_neg last, next]
    simp [last, State.setFrame, count, display]

/-- Settles O35. -/
theorem endOfLineAdvancesTheFrame : Obligations.EndOfLineAdvancesTheFrame := by
  intro s t u running exhausted line hu h
  rw [step_exhausted running exhausted] at h
  cases h
  refine ⟨endLine_eq line hu, ?_, fun none => hu.trans (hostActs_none none)⟩
  rw [hu]; exact (HostFrame.of_hostActs _ s).frame

/-! ## The row of a line (R1030) -/

/-! ### The scroll copy (R1035) -/

theorem and_copyMask (fy : BitVec 3) (nt : BitVec 2) (cy cx : BitVec 5) :
    vramFields fy nt cy cx &&& 0x041F#15 = vramFields 0#3 (nt &&& 1#2) 0#5 cx := by
  have mask : 0x041F#15 = vramFields 0#3 1#2 0#5 (.allOnes 5) := by decide
  rw [mask, vramFields_and]; simp only [BitVec.and_allOnes, BitVec.and_zero]

theorem and_keepMask (fy : BitVec 3) (nt : BitVec 2) (cy cx : BitVec 5) :
    vramFields fy nt cy cx &&& ~~~0x041F#15 = vramFields fy (nt &&& 2#2) cy 0#5 := by
  have mask : ~~~0x041F#15 = vramFields (.allOnes 3) 2#2 (.allOnes 5) 0#5 := by decide
  rw [mask, vramFields_and]; simp only [BitVec.and_allOnes, BitVec.and_zero]

theorem copyX_eq (p : Ppu) : copyX p = { p with v := Spec.copiedX p.t p.v } := by
  obtain ⟨fy, nt, cy, cx, hv⟩ := exists_vramFields p.v
  obtain ⟨fy', nt', cy', cx', ht⟩ := exists_vramFields p.t
  have select : (nt &&& 2#2 ||| nt' &&& 1#2).toNat = nt.toNat / 2 * 2 + nt'.toNat % 2 := by
    clear hv ht; revert nt nt'; decide
  have copied : (p.v &&& ~~~0x041F#15) ||| (p.t &&& 0x041F#15) = Spec.copiedX p.t p.v := by
    rw [hv, ht, and_keepMask, and_copyMask, vramFields_or, vramFields_eq_ofNat, select]
    simp [Spec.copiedX]
  rw [copyX, copied]

/-! ### Its 256 pixels -/

/-- Pixel by pixel, a loop that changes columns in place keeps the line's length. -/
theorem foldl_length {α : Type} {f : Line → α → Line} (h : ∀ row a, (f row a).length = row.length) (l : List α)
    (row : Line) : (l.foldl f row).length = row.length := by
  induction l generalizing row with
  | nil => rfl
  | cons a l ih => rw [List.foldl_cons, ih, h]

theorem bgPixel_length (k : Nat) (t : Row8 × Nat) (s : State) (row : Line) (p : Nat) :
    (bgPixel k t s row p).length = row.length := by
  unfold bgPixel
  dsimp only
  split_ifs
  · rfl
  · rfl
  · exact List.length_modify _ _ _

theorem renderBackground_length (row : Line) (s : State) : (renderBackground row s).1.length = row.length := by
  unfold renderBackground
  generalize List.range 33 = tiles
  induction tiles generalizing row s with
  | nil => rfl
  | cons k tiles ih => exact (ih _ _).trans (foldl_length (bgPixel_length k _ s) _ row)

theorem spriteStep_length (n : Nat) (s : State) (row : Line) (i : Nat) :
    (spriteStep n s row i).length = row.length := by
  unfold spriteStep
  dsimp only
  split
  · rfl
  · refine foldl_length (fun row col => ?_) _ row
    unfold spritePixel
    dsimp only
    split_ifs
    · rfl
    · exact List.length_modify _ _ _

/-- The line before anything is drawn. -/
def blankRow (s : State) : Line :=
  List.replicate 256 { colour := s.ppu.pal.read 0, bgOpaque := false, sprOcc := false }

/-- The background of the line where it is enabled. -/
def backgroundRow (s : State) : Line :=
  if s.ppu.mask.getLsbD 3 then (renderBackground (blankRow s) s).1 else blankRow s

/-- The line that `renderLine` draws. -/
def drawnRow (n : Nat) (s : State) : Line :=
  if s.ppu.mask.getLsbD 4 then renderSprites n (backgroundRow s) s else backgroundRow s

theorem backgroundRow_length (s : State) : (backgroundRow s).length = 256 := by
  have blank : (blankRow s).length = 256 := List.length_replicate
  unfold backgroundRow
  split_ifs
  · rw [renderBackground_length, blank]
  · exact blank

theorem drawnRow_length (n : Nat) (s : State) : (drawnRow n s).length = 256 := by
  unfold drawnRow
  split_ifs
  · exact (foldl_length (spriteStep_length n s) _ _).trans (backgroundRow_length s)
  · exact backgroundRow_length s

theorem renderBackground_state (row : Line) (s : State) :
    (renderBackground row s).2 = { s with ppu := { s.ppu with v := Spec.tiledV 33 s.ppu.v } } :=
  (foldl_bgStep (sx := 0) (by decide) row s 33).1

/-! ### Each of its bytes -/

/-- The colour index and palette that the background shows at column `sx`: index 0 where it is off or clipped. -/
def shownBackground (sx : Nat) (s : State) : Nat × Nat :=
  if s.ppu.mask.getLsbD 3 = true ∧ ¬ (sx < 8 ∧ s.ppu.mask.getLsbD 1 = false) then Spec.backgroundAt sx s else (0, 0)

/-- The pixel that a colour index and palette give before the sprites. -/
def pixelOf (c : Nat × Nat) (s : State) : Pixel :=
  { colour := if c.1 = 0 then s.ppu.pal.read 0 else s.ppu.pal.read (4 * c.2 + c.1)
    bgOpaque := decide (c.1 ≠ 0), sprOcc := false }

theorem backgroundRow_column {sx : Nat} (h : sx < 256) (s : State) :
    (backgroundRow s)[sx]? = some (pixelOf (shownBackground sx s) s) := by
  obtain ⟨drawn, -⟩ := backgroundPixelsComeFromTheirTiles s sx (s.ppu.pal.read 0) h
  unfold backgroundRow shownBackground
  by_cases bg : s.ppu.mask.getLsbD 3 = true
  · rw [if_pos bg]
    refine drawn.trans (congrArg some ?_)
    by_cases clipped : sx < 8 ∧ s.ppu.mask.getLsbD 1 = false
    · rw [if_pos (.inr clipped), if_neg fun shown => shown.2 clipped]; rfl
    · have visible : s.ppu.mask.getLsbD 3 = true ∧ ¬ (sx < 8 ∧ s.ppu.mask.getLsbD 1 = false) := ⟨bg, clipped⟩
      rw [if_congr (or_iff_left clipped) rfl rfl, if_pos visible, pixelOf]
      by_cases transparent : (Spec.backgroundAt sx s).1 = 0 <;> simp [transparent]
  · rw [if_neg bg, if_neg fun shown => bg shown.1]
    exact List.getElem?_replicate_of_lt h

/-- What R1030 leaves at each column, in numbers. -/
theorem drawnRow_column {sx : Nat} (h : sx < 256) (n : Nat) (s : State) :
    (drawnRow n s)[sx]?.map Pixel.colour = some (Spec.rowByte n sx s) := by
  have background := backgroundRow_column h s
  have sprites := firstSpriteInOamOrderWins n sx (backgroundRow s) _ s background h rfl
  unfold drawnRow Spec.rowByte
  dsimp only
  rw [← shownBackground]
  by_cases enabled : s.ppu.mask.getLsbD 4 = true
  · rw [if_pos enabled, sprites]
    by_cases clipped : sx < 8 ∧ s.ppu.mask.getLsbD 2 = false
    · rw [if_pos clipped, if_neg fun shown => shown.2 clipped]; rfl
    · rw [if_neg clipped, if_pos ⟨enabled, clipped⟩]
      cases Spec.firstSprite n sx s with
      | none => rfl
      | some i =>
        have behind : Spec.behind i s = true ∧ (pixelOf (shownBackground sx s) s).bgOpaque = true ↔
            Spec.behind i s = true ∧ (shownBackground sx s).1 ≠ 0 := by rw [pixelOf, decide_eq_true_iff]
        dsimp only
        rw [if_congr behind rfl rfl]
        by_cases hidden : Spec.behind i s = true ∧ (shownBackground sx s).1 ≠ 0
        · rw [if_pos hidden, if_pos hidden]; rfl
        · rw [if_neg hidden, if_neg hidden]; rfl
  · rw [if_neg enabled, background, if_neg fun shown => enabled shown.1]; rfl

/-- The 256 bytes of a line, in numbers. -/
def rowBytes (n : Nat) (s : State) : List Byte := (List.range 256).map fun sx => Spec.rowByte n sx s

theorem rowBytes_length (n : Nat) (s : State) : (rowBytes n s).length = 256 := by
  rw [rowBytes, List.length_map, List.length_range]

theorem drawnRow_colours (n : Nat) (s : State) : (drawnRow n s).map Pixel.colour = rowBytes n s := by
  refine List.ext_getElem? fun sx => ?_
  by_cases h : sx < 256
  · rw [List.getElem?_map, drawnRow_column h, rowBytes, List.getElem?_map, List.getElem?_range h, Option.map_some]
  · rw [List.getElem?_eq_none (by rw [List.length_map, drawnRow_length]; omega),
      List.getElem?_eq_none (by rw [rowBytes_length]; omega)]

/-- The framebuffer `fb` with line `n` drawn into it. -/
def drawInto (fb : Memory) (n : Nat) (s : State) : Memory := fb.writeRun (256 * n) (rowBytes n s)

/-- A rendered line: v past its tiles, and its row in the framebuffer. -/
theorem renderLine_eq (n : Nat) (s : State) :
    renderLine n s = { s with
      ppu := { s.ppu with v := if s.ppu.mask.getLsbD 3 = true then Spec.tiledV 33 s.ppu.v else s.ppu.v }
      frame := { s.frame with fb := drawInto s.frame.fb n s } } := by
  have sprites (row : Line) (v : BitVec 15) :
      renderSprites n row { s with ppu := { s.ppu with v := v } } = renderSprites n row s := rfl
  have background : (if s.ppu.mask.getLsbD 3 = true then renderBackground (blankRow s) s else (blankRow s, s)) =
      (backgroundRow s, { s with ppu := { s.ppu with
        v := if s.ppu.mask.getLsbD 3 = true then Spec.tiledV 33 s.ppu.v else s.ppu.v } }) := by
    unfold backgroundRow
    split_ifs
    · exact Prod.ext rfl (renderBackground_state _ s)
    · rfl
  unfold renderLine
  dsimp only
  rw [← blankRow, background]
  dsimp only
  rw [sprites, drawInto, ← drawnRow_colours]
  rfl

/-- The framebuffer after a visible line: the line's 256 bytes, and the others as before. -/
theorem read_drawInto (fb : Memory) (n k : Nat) (s : State) :
    (drawInto fb n s).read k = if k / 256 = n then Spec.rowByte n (k % 256) s else fb.read k := by
  have range : 256 * n ≤ k ∧ k < 256 * n + 256 ↔ k / 256 = n := by omega
  rw [drawInto, Memory.read_writeRun, rowBytes_length, if_congr range rfl rfl]
  by_cases here : k / 256 = n
  · have column : k - 256 * n = k % 256 := by omega
    rw [if_pos here, if_pos here, column, rowBytes, List.getD_eq_getElem?_getD, List.getElem?_map,
      List.getElem?_range (Nat.mod_lt _ (by decide))]
    rfl
  · rw [if_neg here, if_neg here]

/-! ## Sprite-zero hit (R1044) -/

theorem spriteZeroOpaque_eq (n : Nat) (s : State) : spriteZeroOpaque n s = Spec.spriteZero n s := by
  have height : (if s.ppu.ctrl.getLsbD 5 then 16 else 8) = spriteHeight s.ppu := rfl
  have left : (spriteAt 0 s.ppu).x = Spec.oamNat 0 3 s := rfl
  unfold spriteZeroOpaque Spec.spriteZero Spec.spriteColour
  dsimp only
  rw [spriteOnLine_eq, height, left]
  by_cases covered : Spec.oamNat 0 0 s + 1 ≤ n ∧ n < Spec.oamNat 0 0 s + 1 + spriteHeight s.ppu
  · rw [if_pos covered]
    dsimp only
    rw [Bool.eq_iff_iff]
    simp only [List.any_eq_true, List.mem_range, Bool.and_eq_true, decide_eq_true_iff, bne_iff_ne, flipColumn_eq,
      spriteRow_pixel s 0 _ _ (show n - (Spec.oamNat 0 0 s + 1) < spriteHeight s.ppu by omega)]
    constructor
    · rintro ⟨col, hcol, onScreen, opaque'⟩
      refine ⟨Spec.oamNat 0 3 s + col, by omega, ?_⟩
      rw [if_pos ⟨covered.1, covered.2, by omega, by omega⟩, Nat.add_sub_cancel_left]
      exact opaque'
    · rintro ⟨sx, hsx, opaque'⟩
      by_cases within : Spec.oamNat 0 3 s ≤ sx ∧ sx < Spec.oamNat 0 3 s + 8
      · rw [if_pos ⟨covered.1, covered.2, within⟩] at opaque'
        exact ⟨sx - Spec.oamNat 0 3 s, by omega, by omega, opaque'⟩
      · rw [if_neg fun c => within c.2.2] at opaque'
        exact absurd rfl opaque'
  · rw [if_neg covered]
    symm
    rw [List.any_eq_false]
    intro sx _
    rw [if_neg fun c => covered ⟨c.1, c.2.1⟩]
    exact Bool.false_ne_true

theorem spriteEvaluation_eq (n : Nat) (s : State) :
    spriteEvaluation n s = { s with ppu := { s.ppu with
      sprite0hit := s.ppu.sprite0hit || (s.ppu.mask.getLsbD 4 && Spec.spriteZero n s) } } := by
  unfold spriteEvaluation
  rw [spriteZeroOpaque_eq]
  cases s.ppu.mask.getLsbD 4 && Spec.spriteZero n s
  · rw [Bool.or_false]; rfl
  · rw [Bool.or_true]; rfl

/-! ## The start of a line (R1250) -/

/-- v as a visible line's scroll copy leaves it. -/
def scrolledV (p : Ppu) : BitVec 15 := if renderingEnabled p = true then Spec.copiedX p.t p.v else p.v

theorem visibleLine_eq (s : State) :
    visibleLine s = { s with
      ppu := { s.ppu with
        v := if s.ppu.mask.getLsbD 3 = true then Spec.tiledV 33 (scrolledV s.ppu) else scrolledV s.ppu
        sprite0hit := s.ppu.sprite0hit || (s.ppu.mask.getLsbD 4 && Spec.spriteZero s.frame.line s) }
      frame := { s.frame with
        fb := drawInto s.frame.fb s.frame.line { s with ppu := { s.ppu with v := scrolledV s.ppu } } } } := by
  have scroll : (if renderingEnabled s.ppu = true then s.setPpu (copyX s.ppu) else s) =
      { s with ppu := { s.ppu with v := scrolledV s.ppu } } := by
    rw [copyX_eq]
    unfold scrolledV
    split_ifs <;> rfl
  unfold visibleLine
  dsimp only
  rw [scroll, renderLine_eq, spriteEvaluation_eq]
  rfl

/-- v as the start of a line leaves it before the line is rendered. -/
def lineV (s : State) : BitVec 15 := if s.frame.line ≤ 239 then scrolledV s.ppu else s.ppu.v

/-- The driver's actions before a line's `run` call, in one update. -/
theorem beforeLine_eq (s : State) :
    beforeLine s = { s with
      pads := if s.frame.line = 0
        then { s.pads with snap0 := Config.padInput s.frame.count 0, snap1 := Config.padInput s.frame.count 1 }
        else s.pads
      ppu := { s.ppu with
        v := if s.frame.line ≤ 239 ∧ s.ppu.mask.getLsbD 3 = true then Spec.tiledV 33 (lineV s) else lineV s
        vblank := s.ppu.vblank && decide (s.frame.line ≠ 261)
        sprite0hit := (s.ppu.sprite0hit || (decide (s.frame.line ≤ 239) && s.ppu.mask.getLsbD 4 &&
          Spec.spriteZero s.frame.line s)) && decide (s.frame.line ≠ 261) }
      frame := { s.frame with
        fb := if s.frame.line ≤ 239
          then drawInto s.frame.fb s.frame.line { s with ppu := { s.ppu with v := lineV s } }
          else s.frame.fb } } := by
  have snapshot : (if s.frame.line = 0 then takeSnapshot s else s) = { s with
      pads := if s.frame.line = 0
        then { s.pads with snap0 := Config.padInput s.frame.count 0, snap1 := Config.padInput s.frame.count 1 }
        else s.pads } := by split_ifs <;> rfl
  unfold beforeLine
  dsimp only
  rw [snapshot]
  generalize (if s.frame.line = 0 then _ else s.pads) = pads
  have row (v : BitVec 15) : drawInto s.frame.fb s.frame.line { s with pads := pads, ppu := { s.ppu with v := v } } =
      drawInto s.frame.fb s.frame.line { s with ppu := { s.ppu with v := v } } := rfl
  have hit : Spec.spriteZero s.frame.line { s with pads := pads } = Spec.spriteZero s.frame.line s := rfl
  rw [visibleLine_eq]
  dsimp only
  rw [row, hit]
  by_cases visible : s.frame.line ≤ 239
  · have not261 : s.frame.line ≠ 261 := by omega
    simp [visible, not261, lineV]
  · by_cases last : s.frame.line = 261
    · have frame : s.frame = { s.frame with line := 261 } := by rw [← last]
      simp [last, State.setPpu, lineV, ← frame]
    · simp [visible, last, lineV]

/-- The start of a line is the entry of `run` after the host's actions, which leave the line and the count. -/
theorem startLine_eq {s u : State} (hu : u = hostActs .beforeRun (beforeLine s)) :
    startLine s = { u with
      remaining := u.remaining + (Config.scanlineBudget s.frame.count s.frame.line).toInt
      frame := { u.frame with phase := .running } } := by
  have frame : u.frame = { (beforeLine s).frame with stop := u.frame.stop } := by
    rw [hu]; exact (HostFrame.of_hostActs _ _).frame
  have line : u.frame.line = s.frame.line := by rw [frame, beforeLine_eq]
  have count : u.frame.count = s.frame.count := by rw [frame, beforeLine_eq]
  rw [startLine, ← hu, beginRun, line, count]

/-- Settles O36: the driver's own actions (`beforeLine_eq`), then the host's (`HostFrame`). -/
theorem startOfLineRendersOneRow : Obligations.StartOfLineRendersOneRow := by
  intro s t lineStart h
  rw [step_lineStart lineStart] at h
  cases h
  dsimp only
  have scrolled : (if s.frame.line ≤ 239 ∧ (s.ppu.mask.getLsbD 3 || s.ppu.mask.getLsbD 4) = true
      then Spec.copiedX s.ppu.t s.ppu.v else s.ppu.v) = lineV s := by rw [ite_and]; rfl
  have before := beforeLine_eq s
  have start := startLine_eq (s := s) rfl
  have host := HostFrame.of_hostActs .beforeRun (beforeLine s)
  have none (h : Config.hostEvents s.frame.count s.frame.line .beforeRun = []) :
      hostActs .beforeRun (beforeLine s) = beforeLine s := hostActs_none (by rw [before]; exact h)
  generalize hostActs .beforeRun (beforeLine s) = u at host start none ⊢
  generalize startLine s = t at start ⊢
  generalize beforeLine s = w at before host none ⊢
  rw [scrolled]
  have state := host.state
  refine ⟨by rw [before], fun k => ?_, start, none, by rw [start, state, before], by rw [start, state, before],
    by rw [start, state], by rw [start, state, before], fun clears => ⟨?_, ?_⟩, by rw [start, state],
    by rw [start, state], by rw [start, state, before], by rw [start, state, before]⟩
  · rw [before]
    dsimp only
    by_cases visible : s.frame.line ≤ 239
    · rw [if_pos visible, read_drawInto]
      exact if_congr (and_iff_right visible).symm rfl rfl
    · rw [if_neg visible, if_neg fun here => visible here.1]
  · have cleared : w.ppu.vblank = false := by rw [before, clears]; simp
    rw [start]; exact host.vblank cleared
  · rw [start, state, before, clears]; simp

/-! ## Every step keeps the invariant -/

/-! ### Instructions -/

/-- A fetch is one, two or three reads, by the length of the opcode. -/
theorem fetchInstr_state (s : State) :
    (fetchInstr s).2 = (fetch8 s).2 ∨ (fetchInstr s).2 = (fetch8 (fetch8 s).2).2 ∨
      (fetchInstr s).2 = (fetch8 (fetch8 (fetch8 s).2).2).2 := by
  unfold fetchInstr
  dsimp only
  split_ifs
  · exact .inl rfl
  · exact .inr (.inl rfl)
  · exact .inr (.inr rfl)

namespace State

theorem wellStored_readOperand (o : ReadOperand) {s : State} (h : s.wellStored) : (readOperand o s).2.wellStored := by
  cases o with
  | imm b => exact h
  | mem m => exact wellStored_busRead (s := s.charge (crossPenalty m s)) _ h

theorem wellStored_modifyMemory (g : Byte → Flags → Byte × Flags) (m : Mode) {s : State} (h : s.wellStored) :
    (modifyOperand g (.mem m) s).wellStored :=
  wellStored_busWrite _ _ (wellStored_busRead _ h)

theorem wellStored_shift (g : Byte → Flags → Byte × Flags) (o : ShiftForm) {s : State} (h : s.wellStored) :
    (modifyOperand g (shiftOperand o) s).wellStored := by
  cases o with
  | acc => exact h
  | zp z => exact wellStored_modifyMemory g (.zp z) h
  | zpX z => exact wellStored_modifyMemory g (.zpX z) h
  | abs a => exact wellStored_modifyMemory g (.abs a) h
  | absX a => exact wellStored_modifyMemory g (.absX a) h

theorem wellStored_branchIf (c : Bool) (off : Byte) {s : State} (h : s.wellStored) :
    (branchIf c off s).wellStored := by cases c <;> exact h

theorem wellStored_push8 (v : Byte) {s : State} (h : s.wellStored) : (push8 v s).wellStored :=
  wellStored_busWrite _ v h

theorem wellStored_push16 (w : Addr) {s : State} (h : s.wellStored) : (push16 w s).wellStored :=
  wellStored_push8 _ (wellStored_push8 _ h)

theorem wellStored_takeInterrupt (k : Entry) {s : State} (h : s.wellStored) : (takeInterrupt k s).wellStored :=
  wellStored_busRead _ (wellStored_busRead _ (wellStored_push8 (packP (entryBreak k) s.flags)
    (wellStored_push16 s.pc h)))

/-- Instruction by instruction: what is neither a bus access nor a push changes CPU registers and the log only. -/
theorem wellStored_exec {i : Instr} {s t : State} (hs : s.wellStored) (h : exec i s = .next t) : t.wellStored := by
  cases i
  case pla =>
    rw [exec_pla, pull8_eq] at h; cases h
    exact hs
  case plp =>
    rw [exec_plp, pull8_eq] at h; cases h
    exact hs
  case rts =>
    rw [exec_rts, pull16_eq] at h; cases h
    exact hs
  case jmp o =>
    cases o with
    | abs a => cases h; exact hs
    | ind ptr =>
      rw [exec_jmpInd] at h; cases h
      exact wellStored_busRead (pointerHigh ptr) (wellStored_busRead ptr hs)
  all_goals cases h
  case lda | ldx | ldy | adc | sbc | and | ora | eor | cmp | cpx | cpy | bit => exact wellStored_readOperand _ hs
  case sta | stx | sty => exact wellStored_busWrite _ _ hs
  case inc | dec => exact wellStored_modifyMemory _ _ hs
  case asl | lsr | rol | ror => exact wellStored_shift _ _ hs
  case bpl | bmi | bvc | bvs | bcc | bcs | bne | beq => exact wellStored_branchIf _ _ hs
  case pha | php => exact wellStored_push8 _ hs
  case jsr => exact wellStored_push16 _ hs
  case brk => exact wellStored_takeInterrupt .brk hs
  case rti => rw [returnFromInterrupt_eq]; exact hs
  case tax | tay | txa | tya | tsx | txs | inx | iny | dex | dey => exact hs
  case clc | sec | cli | sei | cld | sed | clv | nop | ill => exact hs

/-! ### Service and the fetch -/

theorem wellStored_drawStackByte (sp : Byte) {s : State} (h : s.wellStored) : (drawStackByte sp s).wellStored :=
  wellStored_busWrite (s := (drawByte s).2) _ _ h

theorem wellStored_servicedReset {s : State} (h : s.wellStored) : (servicedReset s).wellStored := by
  have sequence : (resetSequence s).wellStored := by rw [resetSequence_eq]; exact h
  exact wellStored_drawStackByte _ (wellStored_drawStackByte _ (wellStored_drawStackByte _ sequence))

theorem wellStored_service {s : State} (h : s.wellStored) : (service s).wellStored := by
  obtain k | k | ⟨e, k⟩ | k := service_cases s
  · rw [k]; exact h
  · rw [k]; exact h
  · rw [k]; exact wellStored_takeInterrupt (s := s.setPending none) e h
  · rw [k]; exact wellStored_servicedReset (s := s.setPending none) h

theorem wellStored_fetchInstr {s : State} (h : s.wellStored) : (fetchInstr s).2.wellStored := by
  have fetch {u : State} (hu : u.wellStored) : (fetch8 u).2.wellStored := wellStored_busRead u.pc hu
  obtain k | k | k := fetchInstr_state s
  · rw [k]; exact fetch h
  · rw [k]; exact fetch (fetch h)
  · rw [k]; exact fetch (fetch (fetch h))

theorem wellStored_charge (n : Nat) {s : State} (h : s.wellStored) : (s.charge n).wellStored := h

theorem wellStored_executing {s : State} (h : s.wellStored) : (executing s).wellStored :=
  wellStored_charge _ (wellStored_fetchInstr (wellStored_service (s := { s with cost := 0 }) h))

end State

/-! ### The deferred queue through an iteration (R1101) -/

@[simp] theorem fetch8_apu (s : State) : (fetch8 s).2.apu = s.apu := busRead_apu s.pc s

theorem fetchInstr_apu (s : State) : (fetchInstr s).2.apu = s.apu := by
  obtain h | h | h := fetchInstr_state s <;> rw [h] <;> simp only [fetch8_apu]

theorem service_apu (s : State) : (service s).apu = s.apu := by
  obtain h | h | ⟨k, h⟩ | h := service_cases s
  · rw [h]
  · rw [h]; rfl
  · rw [h, takeInterrupt_eq]; rfl
  · rw [h, servicedReset_eq]; rfl

theorem executing_apu (s : State) : (executing s).apu = s.apu := by
  rw [executing, State.charge_apu, fetchInstr_apu, beginIteration, service_apu]

theorem executing_clock (s : State) : (executing s).clock = s.clock := by
  have fetch := (BusFrame.of_fetchInstr (beginIteration s)).clock
  have served := (PlatformKept.of_service { s with cost := 0 }).clock
  rw [State.setPc_clock] at fetch
  rw [executing, State.charge_clock, fetch, beginIteration, served]

/-- An instruction queues at most one write, stamped with what is charged before it; the clock then moves at least that
far. -/
theorem queueOrdered_settle {i : Instr} {s u : State} (hs : s.queueOrdered) (h : exec i (executing s) = .next u) :
    (settle u).queueOrdered := by
  obtain ⟨-, clock, -, -, queue, -⟩ := instructionsLeaveThePlatformAlone _ _ _ h
  have charged := exec_cost_le h
  obtain ⟨ordered, past⟩ := hs
  rw [executing_apu, executing_clock] at queue
  rw [executing_clock] at clock
  have now : (settle u).clock = s.clock + u.cost := by rw [← clock]; rfl
  have later (w : DeferredWrite) (hw : w ∈ s.apu.queue) : w.ts ≤ (settle u).clock := by
    have := past w hw; omega
  obtain same | ⟨a, v, appended⟩ := queue
  · have kept : (settle u).apu.queue = s.apu.queue := congrArg Apu.queue same
    exact ⟨by rw [kept]; exact ordered, by rw [kept]; exact later⟩
  · have kept : (settle u).apu.queue = s.apu.queue ++ [{ ts := s.clock + (executing s).cost, addr := a, val := v }] :=
      congrArg Apu.queue appended
    unfold State.queueOrdered
    rw [kept]
    refine ⟨List.pairwise_append.2 ⟨ordered, List.pairwise_singleton _ _, fun w hw x hx => ?_⟩, fun w hw => ?_⟩
    · rw [List.mem_singleton.1 hx]
      exact (past w hw).trans (Nat.le_add_right _ _)
    · obtain hw | hw := List.mem_append.1 hw
      · exact later w hw
      · rw [List.mem_singleton.1 hw, now]
        exact Nat.add_le_add_left charged _

theorem iteration_inv {s t : State} (hs : s.Inv) (h : iteration s = .next t) : t.Inv := by
  obtain ⟨stored, ordered⟩ := hs
  obtain ⟨u, executed, answer⟩ := iteration_completes s
  obtain rfl : settle u = t := Host.Outcome.next.inj (answer.symm.trans h)
  have kept : u.wellStored := State.wellStored_exec (State.wellStored_executing stored) executed
  exact ⟨kept, queueOrdered_settle ordered executed⟩

/-! ### The host and the frame driver -/

theorem HostFrame.inv {s t : State} (h : HostFrame s t) (hs : s.Inv) : t.Inv := by
  obtain ⟨stored, ordered, past⟩ := hs
  obtain ⟨-, -, -, ⟨-, idx0, idx1, -⟩, -⟩ := id stored
  obtain ⟨idx0, idx1⟩ := h.pads ⟨idx0, idx1⟩
  have queue := h.queue
  have clock : t.clock = s.clock := by rw [h.state]
  refine ⟨State.wellStored_congr stored ?_ ?_ ?_ ?_ ?_ ?_ ?_ ?_ ?_ ?_ idx0 idx1 ?_, ordered.sublist queue,
    fun w hw => clock ▸ past w (queue.subset hw)⟩
  all_goals rw [h.state]

theorem drawInto_wf {fb : Memory} (h : fb.wf) (n : Nat) (s : State) : (drawInto fb n s).wf :=
  Memory.wf_writeRun _ _ h

theorem drawInto_within {fb : Memory} {n : Nat} (h : fb.within (256 * 240)) (hn : n ≤ 239) (s : State) :
    (drawInto fb n s).within (256 * 240) :=
  Memory.within_writeRun _ _ (by rw [rowBytes_length]; omega) h

theorem beforeLine_inv {s : State} (hs : s.Inv) : (beforeLine s).Inv := by
  obtain ⟨⟨canonical, sizes, windows, ⟨line, idx0, idx1, count⟩, overflow⟩, ordered⟩ := hs
  obtain ⟨ram, sram, nt, pal, oam, fb, display, prg, chr⟩ := canonical
  obtain ⟨ram', sram', nt', pal', oam', fb', display', chr'⟩ := sizes
  have pads (p q : Vector Bool 8) (c : Prop) [Decidable c] :
      (if c then { s.pads with snap0 := p, snap1 := q } else s.pads).idx0 ≤ 8 ∧
      (if c then { s.pads with snap0 := p, snap1 := q } else s.pads).idx1 ≤ 8 := by
    split_ifs <;> exact ⟨idx0, idx1⟩
  obtain ⟨idx0, idx1⟩ := pads _ _ (s.frame.line = 0)
  have picture (v : State) : (if s.frame.line ≤ 239 then drawInto s.frame.fb s.frame.line v else s.frame.fb).wf ∧
      (if s.frame.line ≤ 239 then drawInto s.frame.fb s.frame.line v else s.frame.fb).within (256 * 240) := by
    split_ifs with visible
    · exact ⟨drawInto_wf fb _ v, drawInto_within fb' visible v⟩
    · exact ⟨fb, fb'⟩
  obtain ⟨fb, fb'⟩ := picture _
  rw [beforeLine_eq]
  exact ⟨⟨⟨ram, sram, nt, pal, oam, fb, display, prg, chr⟩, ⟨ram', sram', nt', pal', oam', fb', display', chr'⟩,
    windows, ⟨line, idx0, idx1, count⟩, overflow⟩, ordered⟩

theorem startLine_inv {s : State} (hs : s.Inv) : (startLine s).Inv :=
  (HostFrame.of_hostActs .beforeRun _).inv (beforeLine_inv hs)

theorem endLine_inv {s : State} (hs : s.Inv) : (endLine s).Inv := by
  obtain ⟨⟨⟨-, -, -, -, -, fb, display, -, -⟩, ⟨-, -, -, -, -, fb', display', -⟩, -, ⟨line, -⟩, -⟩, -⟩ := id hs
  have acted := (HostFrame.of_hostActs .afterRun s).inv hs
  have shown : (if s.frame.line = 261 then s.frame.fb else s.frame.display).wf ∧
      (if s.frame.line = 261 then s.frame.fb else s.frame.display).within (256 * 240) := by
    split_ifs
    · exact ⟨fb, fb'⟩
    · exact ⟨display, display'⟩
  obtain ⟨display, display'⟩ := shown
  have next : (s.frame.line + 1) % 262 ≤ 261 := by omega
  rw [endLine_eq line rfl]
  obtain ⟨⟨⟨ram, sram, nt, pal, oam, fb, -, prg, chr⟩, ⟨ram', sram', nt', pal', oam', fb', -, chr'⟩, windows,
    ⟨-, pads⟩, overflow⟩, ordered⟩ := acted
  exact ⟨⟨⟨ram, sram, nt, pal, oam, fb, display, prg, chr⟩, ⟨ram', sram', nt', pal', oam', fb', display', chr'⟩,
    windows, ⟨next, pads⟩, overflow⟩, ordered⟩

/-- Settles O42: by the phase of the frame driver. -/
theorem everyStepKeepsTheInvariant : Obligations.EveryStepKeepsTheInvariant := by
  intro s t hs h
  cases phase : s.frame.phase with
  | lineStart => rw [step_lineStart phase] at h; cases h; exact startLine_inv hs
  | ended => rw [step_ended phase] at h; cases h; exact hs
  | running =>
    by_cases cycles : 0 < s.remaining
    · rw [step_running phase cycles] at h; exact iteration_inv hs h
    · rw [step_exhausted phase (Int.not_lt.1 cycles)] at h; cases h; exact endLine_inv hs

/-! ## OAM DMA (R1203, R1026) -/

/-- Byte `i` of page `d`. -/
theorem word16_page (d : Byte) {i : Nat} (hi : i < 256) :
    word16 d (BitVec.ofNat 8 i) = BitVec.ofNat 16 (256 * d.toNat + i) := by
  apply BitVec.eq_of_toNat_eq
  have := d.isLt
  rw [word16_toNat, BitVec.toNat_ofNat, BitVec.toNat_ofNat]
  omega

/-- One byte of the copy, from plain memory: OAM changes at its place, nothing else. -/
theorem oamDmaByte_of_peek {d b : Byte} {s : State} {i : Nat} (hi : i < 256)
    (h : peek (BitVec.ofNat 16 (256 * d.toNat + i)) s = some b) :
    oamDmaByte d s i =
      { s with ppu := { s.ppu with oam := s.ppu.oam.write ((s.ppu.oamaddr.toNat + i) % 256) b } } := by
  rw [oamDmaByte, word16_page d hi, busRead_of_peek h]

/-- The first `n` bytes of the copy: no byte of the page is in OAM, so each is read as it was. -/
theorem foldl_oamDmaByte {d : Byte} {b : Nat → Byte} {s : State}
    (page : ∀ i, i < 256 → peek (BitVec.ofNat 16 (256 * d.toNat + i)) s = some (b i)) {n : Nat} (hn : n ≤ 256) :
    ∃ oam : Memory, (List.range n).foldl (oamDmaByte d) s = { s with ppu := { s.ppu with oam := oam } } ∧
      (∀ i, i < n → oam.read ((s.ppu.oamaddr.toNat + i) % 256) = b i) ∧
      ∀ k, 256 ≤ k → oam.read k = s.ppu.oam.read k := by
  induction n with
  | zero => exact ⟨s.ppu.oam, rfl, fun _ h => absurd h (Nat.not_lt_zero _), fun _ _ => rfl⟩
  | succ n ih =>
    obtain ⟨oam, copied, inside, outside⟩ := ih (by omega)
    refine ⟨oam.write ((s.ppu.oamaddr.toNat + n) % 256) (b n), ?_, fun i hi => ?_, fun k hk => ?_⟩
    · rw [List.range_succ, List.foldl_append, List.foldl_cons, List.foldl_nil, copied]
      exact oamDmaByte_of_peek hn (page n hn)
    · rw [Memory.read_write]
      obtain earlier | rfl := Nat.lt_or_eq_of_le (Nat.le_of_lt_succ hi)
      · rw [if_neg (by omega), inside i earlier]
      · rw [if_pos rfl]
    · rw [Memory.read_write, if_neg (by omega), outside k hk]

/-- Settles O50. -/
theorem oamDmaCopiesThePage : Obligations.OamDmaCopiesThePage := by
  refine ⟨fun d b s page => ?_, fun d s => ⟨?_, rfl⟩⟩
  · obtain ⟨oam, copied, inside, outside⟩ := foldl_oamDmaByte page (Nat.le_refl 256)
    refine ⟨oam, inside, outside, ?_⟩
    have dma : busWrite 0x4014 d s = oamDma d s := rfl
    rw [dma, oamDma, copied]
    rfl
  · have step : s.ppu.oamaddr + 1 = BitVec.ofNat 8 (s.ppu.oamaddr.toNat + 1) := by
      rw [BitVec.ofNat_add, BitVec.ofNat_toNat, BitVec.setWidth_eq]; rfl
    rw [port_eq (by decide), ← step]
    rfl

/-! ## The pads (R1210, R1211) -/

/-- Bit 0 of a pad read is the button at the index. -/
theorem padByte_bit0 (snap : Vector Bool 8) {idx : Nat} (h : idx < 8) (r : Byte) :
    (padByte snap idx r).getLsbD 0 = snap[idx] := by
  have masked : (r &&& 0xFE).getLsbD 0 = false := by rw [BitVec.getLsbD_and]; exact Bool.and_false _
  have button : snap.toList.getD idx false = snap[idx] := by
    rw [List.getD_eq_getElem?_getD, List.getElem?_eq_getElem (by simpa using h)]; simp
  rw [padByte, if_pos h, BitVec.getLsbD_or, masked, button, Bool.false_or]
  cases snap[idx] <;> rfl

/-- What a read of port `a` does for its pad, whose snapshot and index are `snap` and `idx`. -/
structure PadPort (a : Addr) (snap : Pads → Vector Bool 8) (idx : Pads → Nat) : Prop where
  byte (s : State) : (busRead a s).1 =
    padByte (snap s.pads) (if s.pads.strobe then 0 else idx s.pads) (Config.freeByte s.draws)
  snap (s : State) : snap (busRead a s).2.pads = snap s.pads
  strobe (s : State) : (busRead a s).2.pads.strobe = s.pads.strobe
  idx (s : State) : idx (busRead a s).2.pads = padNext s.pads.strobe (if s.pads.strobe then 0 else idx s.pads)

theorem padPort0 : PadPort 0x4016 Pads.snap0 Pads.idx0 := ⟨fun _ => rfl, fun _ => rfl, fun _ => rfl, fun _ => rfl⟩

theorem padPort1 : PadPort 0x4017 Pads.snap1 Pads.idx1 := ⟨fun _ => rfl, fun _ => rfl, fun _ => rfl, fun _ => rfl⟩

/-- The state after `j` reads of `a`. -/
def afterReads (a : Addr) (j : Nat) (s : State) : State := (List.range j).foldl (fun u _ => (busRead a u).2) s

theorem afterReads_succ (a : Addr) (j : Nat) (s : State) :
    afterReads a (j + 1) s = (busRead a (afterReads a j s)).2 := by
  rw [afterReads, List.range_succ, List.foldl_append]; rfl

namespace PadPort

variable {a : Addr} {snap : Pads → Vector Bool 8} {idx : Pads → Nat}

theorem afterReads_kept (port : PadPort a snap idx) (j : Nat) (s : State) :
    snap (afterReads a j s).pads = snap s.pads ∧ (afterReads a j s).pads.strobe = s.pads.strobe := by
  induction j with
  | zero => exact ⟨rfl, rfl⟩
  | succ j ih => rw [afterReads_succ, port.snap, port.strobe]; exact ih

/-- With the strobe at 0 each read moves the index by one, up to 8. -/
theorem afterReads_idx (port : PadPort a snap idx) {s : State} (released : s.pads.strobe = false)
    (start : idx s.pads = 0) (j : Nat) : idx (afterReads a j s).pads = min j 8 := by
  induction j with
  | zero => exact start.trans (Nat.zero_min 8).symm
  | succ j ih =>
    obtain ⟨-, strobe⟩ := port.afterReads_kept j s
    rw [afterReads_succ, port.idx, strobe, released, ih]
    simp only [padNext, Bool.false_eq_true, if_false]
    split_ifs <;> omega

/-- So read `k` shows button `k`. -/
theorem button (port : PadPort a snap idx) {s : State} (released : s.pads.strobe = false) (start : idx s.pads = 0)
    {k : Nat} (hk : k < 8) : (busRead a (afterReads a k s)).1.getLsbD 0 = (snap s.pads)[k] := by
  obtain ⟨snapshot, strobe⟩ := port.afterReads_kept k s
  have here : idx (afterReads a k s).pads = k := by rw [port.afterReads_idx released start]; omega
  rw [port.byte, strobe, released, snapshot, here]
  exact padByte_bit0 _ hk _

/-- While the strobe is 1 a read shows button A. -/
theorem buttonA (port : PadPort a snap idx) {s : State} (held : s.pads.strobe = true) :
    (busRead a s).1.getLsbD 0 = (snap s.pads)[0] := by
  rw [port.byte, held]
  exact padByte_bit0 _ (show 0 < 8 by decide) _

theorem buttonA_afterReads (port : PadPort a snap idx) {s : State} (held : s.pads.strobe = true) (j : Nat) :
    (busRead a (afterReads a j s)).1.getLsbD 0 = (snap s.pads)[0] := by
  obtain ⟨snapshot, strobe⟩ := port.afterReads_kept j s
  rw [port.buttonA (strobe.trans held), snapshot]

end PadPort

/-- Settles O53: what a pad's port does is the same for both pads (`padPort0`, `padPort1`). -/
theorem padsShiftOutTheirButtons : Obligations.PadsShiftOutTheirButtons := by
  refine ⟨fun s => ⟨fun k hk => ⟨?_, ?_⟩, fun j => ⟨?_, ?_, ?_, ?_⟩⟩, fun s held => ?_⟩
  · exact padPort0.button (s := busWrite 0x4016 0x00 (busWrite 0x4016 0x01 s)) rfl rfl hk
  · exact padPort1.button (s := busWrite 0x4016 0x00 (busWrite 0x4016 0x01 s)) rfl rfl hk
  · exact (padPort0.afterReads_idx (s := busWrite 0x4016 0x00 (busWrite 0x4016 0x01 s)) rfl rfl (8 + j)).trans
      (Nat.min_eq_right (Nat.le_add_right 8 j))
  · exact (padPort1.afterReads_idx (s := busWrite 0x4016 0x00 (busWrite 0x4016 0x01 s)) rfl rfl (8 + j)).trans
      (Nat.min_eq_right (Nat.le_add_right 8 j))
  · exact padPort0.buttonA_afterReads (s := busWrite 0x4016 0x01 s) rfl j
  · exact padPort1.buttonA_afterReads (s := busWrite 0x4016 0x01 s) rfl j
  have rests (i : Nat) : padNext s.pads.strobe i = 0 := if_pos held
  refine ⟨padPort0.buttonA held, ?_, padPort1.buttonA held, ?_⟩
  · exact congrArg (fun i => ({ s with pads := { s.pads with idx0 := i }, draws := s.draws + 1 } : State)) (rests _)
  · exact congrArg (fun i => ({ s with pads := { s.pads with idx1 := i }, draws := s.draws + 1 } : State)) (rests _)

/-! ## The mapper's windows (R1301, R1302) -/

theorem prgOffset_lt {s : State} (pages : 0 < s.cart.prgPages) (a : Addr) : prgOffset a s < 16384 * s.cart.prgPages :=
  Nat.mod_lt _ (Nat.mul_pos (by decide) pages)

/-- From 0x8000 up bit 14 selects the high PRG window. -/
theorem getLsbD_14 {a : Addr} (rom : 0x8000 ≤ a.toNat) : a.getLsbD 14 = !decide (a.toNat < 0xC000) := by
  have top := a.isLt
  rw [BitVec.getLsbD, Nat.testBit_eq_decide_div_mod_eq, ← decide_not, decide_eq_decide]
  omega

/-- Windows that start at banks of the image show those banks. -/
theorem prgRead_of_banks {a : Addr} {s : State} {low high : Nat} (rom : 0x8000 ≤ a.toNat)
    (prg0 : s.mapper.win.prg0 = 16384 * low) (prg1 : s.mapper.win.prg1 = 16384 * high) (hlow : low < s.cart.prgPages)
    (hhigh : high < s.cart.prgPages) :
    prgRead a s = Spec.prgBank (if a.toNat < 0xC000 then low else high) a s := by
  have offset : prgOffset a s = 16384 * (if a.toNat < 0xC000 then low else high) + a.toNat % 16384 := by
    rw [prgOffset, getLsbD_14 rom, prg0, prg1, prgSize]
    by_cases half : a.toNat < 0xC000
    · simp only [half, decide_true, Bool.not_true, Bool.false_eq_true, if_true, if_false]
      exact Nat.mod_eq_of_lt (by omega)
    · simp only [half, decide_false, Bool.not_false, if_true, if_false]
      exact Nat.mod_eq_of_lt (by omega)
  rw [prgRead, Spec.prgBank, offset]

/-- A PRG read depends on the image and the PRG windows only. -/
theorem prgRead_congr {s t : State} (cart : t.cart = s.cart) (prg0 : t.mapper.win.prg0 = s.mapper.win.prg0)
    (prg1 : t.mapper.win.prg1 = s.mapper.win.prg1) (a : Addr) : prgRead a t = prgRead a s := by
  rw [prgRead, prgRead, prgOffset, prgOffset, cart, prg0, prg1]

/-- A CHR read depends on the image and the CHR windows only. -/
theorem chrRead_congr {s t : State} (cart : t.cart = s.cart) (chr0 : t.mapper.win.chr0 = s.mapper.win.chr0)
    (chr1 : t.mapper.win.chr1 = s.mapper.win.chr1) (a : BitVec 14) : chrRead a t = chrRead a s := by
  rw [chrRead, chrRead, chrOffset, chrOffset, cart, chr0, chr1]

/-! ## The bank-select variants (R1310, R1315, R1320) -/

section

variable {a : Addr} (d : Byte) {s : State} (rom : 0x8000 ≤ a.toNat)
include rom

theorem busWrite_fixedBank (regs : s.mapper.regs = .fixedBank) : busWrite a d s = s := by
  rw [busWrite_mapper d s rom, mapperWrite, if_neg (by omega), regs]

theorem busWrite_prgBankSelect {b : Nat} (regs : s.mapper.regs = .prgBankSelect b) :
    busWrite a d s = setMapper (.prgBankSelect (d.toNat % s.cart.prgPages)) s := by
  rw [busWrite_mapper d s rom, mapperWrite, if_neg (by omega), regs]

theorem busWrite_chrBankSelect {b : Nat} (regs : s.mapper.regs = .chrBankSelect b) :
    busWrite a d s = setMapper (.chrBankSelect (d.toNat % nChr8 s.cart)) s := by
  rw [busWrite_mapper d s rom, mapperWrite, if_neg (by omega), regs]

theorem busWrite_shiftReg {r : Mmc1} (regs : s.mapper.regs = .shiftReg r) : busWrite a d s = mmc1Write a d r s := by
  rw [busWrite_mapper d s rom, mapperWrite, if_neg (by omega), regs]

end

/-- Settles O58: variant by variant. -/
theorem bankSelectsMoveTheirWindows : Obligations.BankSelectsMoveTheirWindows := by
  intro s a d derived pages rom t
  refine ⟨busWrite_fixedBank d rom, fun b regs => ?prg, fun b regs => ?chr, fun c => ?inside⟩
  case prg =>
    have moved : t = setMapper (.prgBankSelect (d.toNat % s.cart.prgPages)) s := busWrite_prgBankSelect d rom regs
    have shows (c : Addr) (h : 0x8000 ≤ c.toNat) : prgRead c t =
        Spec.prgBank (if c.toNat < 0xC000 then d.toNat % s.cart.prgPages else s.cart.prgPages - 1) c s := by
      rw [moved]
      exact prgRead_of_banks h rfl rfl (Nat.mod_lt _ pages) (Nat.sub_lt pages (by decide))
    have win : s.mapper.win = recompute s.cart (.prgBankSelect b) := derived.trans (by rw [regs])
    refine fun c => ⟨fun h k => ?_, fun h => ?_, fun p => ?_⟩
    · rw [shows c h, if_pos k]
    · rw [shows c (by omega), if_neg (by omega)]
    · have chr0 : t.mapper.win.chr0 = s.mapper.win.chr0 := by rw [moved, win]; rfl
      have chr1 : t.mapper.win.chr1 = s.mapper.win.chr1 := by rw [moved, win]; rfl
      exact chrRead_congr (by rw [moved]; rfl) chr0 chr1 p
  case chr =>
    have moved : t = setMapper (.chrBankSelect (d.toNat % nChr8 s.cart)) s := busWrite_chrBankSelect d rom regs
    have win : s.mapper.win = recompute s.cart (.chrBankSelect b) := derived.trans (by rw [regs])
    have prg0 : t.mapper.win.prg0 = s.mapper.win.prg0 := by rw [moved, win]; rfl
    have prg1 : t.mapper.win.prg1 = s.mapper.win.prg1 := by rw [moved, win]; rfl
    exact ⟨prgRead_congr (by rw [moved]; rfl) prg0 prg1, by rw [moved]; rfl, by rw [moved]; rfl⟩
  case inside => exact prgOffset_lt pages c

/-! ## The shift-register variant (R1325, R1326) -/

/-- Address bits 14:13 select the register by ranges of 8 KB. -/
theorem mmc1Dispatch_eq {a : Addr} (rom : 0x8000 ≤ a.toNat) (n : Nat) (r : Mmc1) (s : State) :
    mmc1Dispatch a (BitVec.ofNat 5 n) r s = Spec.dispatched a n { r with shift := 0, count := 0 } s := by
  have top := a.isLt
  have selects (k : BitVec 2) : a.extractLsb' 13 2 = k ↔ a.toNat / 8192 % 4 = k.toNat := by
    rw [← BitVec.toNat_inj, BitVec.extractLsb'_toNat, Nat.shiftRight_eq_div_pow]
  have mode : mmc1Mode ((BitVec.ofNat 5 n).toNat % 4) =
      if n % 4 = 2 then .vertical else if n % 4 = 3 then .horizontal else .singleScreen0 := by
    have low : (BitVec.ofNat 5 n).toNat % 4 = n % 4 := by rw [BitVec.toNat_ofNat]; omega
    rw [low, mmc1Mode]
  have nibble : (BitVec.ofNat 5 n).extractLsb' 0 4 = BitVec.ofNat 4 n := by
    apply BitVec.eq_of_toNat_eq
    rw [BitVec.extractLsb'_toNat, Nat.shiftRight_zero, BitVec.toNat_ofNat, BitVec.toNat_ofNat]
    omega
  rw [mmc1Dispatch, Spec.dispatched, mode, nibble]
  simp only [selects]
  by_cases control : a.toNat < 0xA000
  · rw [if_pos control, if_pos (by simp; omega)]
  rw [if_neg control, if_neg (by simp; omega)]
  by_cases chr0 : a.toNat < 0xC000
  · rw [if_pos chr0, if_pos (by simp; omega)]
  rw [if_neg chr0, if_neg (by simp; omega)]
  by_cases chr1 : a.toNat < 0xE000
  · rw [if_pos chr1, if_pos (by simp; omega)]
  · rw [if_neg chr1, if_neg (by simp; omega)]

/-- Bit 0 of the byte joins the shift register at the position the count gives. -/
theorem shiftIn_eq (r : Mmc1) (d : Byte) : r.shift ||| ((d &&& 1).setWidth 5 <<< r.count) =
    BitVec.ofNat 5 (r.shift.toNat ||| (d.toNat % 2 * 2 ^ r.count)) := by
  have bit : (d &&& 1).setWidth 5 <<< r.count = BitVec.ofNat 5 (d.toNat % 2 * 2 ^ r.count) := by
    have masked : (d &&& 1).toNat = d.toNat % 2 := Nat.and_two_pow_sub_one_eq_mod d.toNat 1
    apply BitVec.eq_of_toNat_eq
    rw [BitVec.toNat_shiftLeft, BitVec.toNat_setWidth, masked, Nat.shiftLeft_eq, BitVec.toNat_ofNat]
    simp
  rw [bit, BitVec.ofNat_or, BitVec.ofNat_toNat, BitVec.setWidth_eq]

/-- `s` with the `k` bits of `n` in the shift register of `r`. -/
def shiftedIn (n k : Nat) (r : Mmc1) (s : State) : State :=
  { s with mapper := { s.mapper with regs := .shiftReg { r with shift := BitVec.ofNat 5 n, count := k } } }

section

variable {a : Addr} {d : Byte} {r : Mmc1} {s : State} (rom : 0x8000 ≤ a.toNat) (regs : s.mapper.regs = .shiftReg r)
include rom regs

theorem busWrite_reset (reset : 128 ≤ d.toNat) : busWrite a d s =
    setMapper (.shiftReg { r with shift := 0, count := 0, control := r.control ||| 0x0C }) s := by
  have bit : d.getLsbD 7 = true := (getLsbD_iff d 7).mpr (by have := d.isLt; omega)
  rw [busWrite_shiftReg d rom regs, mmc1Write, if_pos bit]

/-- A write that is not a reset, in terms of the number shifted in. -/
theorem busWrite_serial (bit : d.toNat < 128) : busWrite a d s =
    if r.count + 1 = 5 then
      Spec.dispatched a (r.shift.toNat ||| (d.toNat % 2 * 2 ^ r.count)) { r with shift := 0, count := 0 } s
    else shiftedIn (r.shift.toNat ||| (d.toNat % 2 * 2 ^ r.count)) (r.count + 1) r s := by
  have clear : ¬ d.getLsbD 7 = true := fun set => by have := (getLsbD_iff d 7).mp set; omega
  rw [busWrite_shiftReg d rom regs, mmc1Write, if_neg clear, shiftIn_eq, ← mmc1Dispatch_eq rom]
  rfl

end

/-! ### Five writes -/

theorem emptied_of_empty {r : Mmc1} (shift : r.shift = 0) (count : r.count = 0) :
    ({ r with shift := 0, count := 0 } : Mmc1) = r := by
  rw [← shift, ← count]

theorem shiftedIn_nothing {r : Mmc1} {s : State} (regs : s.mapper.regs = .shiftReg r) (shift : r.shift = 0)
    (count : r.count = 0) : shiftedIn 0 0 r s = s := by
  have empty : ({ r with shift := BitVec.ofNat 5 0, count := 0 } : Mmc1) = r := emptied_of_empty shift count
  rw [shiftedIn, empty, ← regs]

/-- A bit above all bits of `n` is added to it. -/
theorem or_bit_eq_add {n k : Nat} (h : n < 2 ^ k) (b : Nat) : n ||| (b * 2 ^ k) = n + b * 2 ^ k := by
  rw [Nat.or_comm, Nat.mul_comm, ← Nat.two_pow_add_eq_or_of_lt h, Nat.add_comm]

section

variable {a : Addr} {d : Byte} {n k : Nat} (r : Mmc1) (s : State) (rom : 0x8000 ≤ a.toNat) (bit : d.toNat < 128)
  (small : n < 2 ^ k)
include rom bit small

theorem busWrite_shiftedIn (more : k < 4) :
    busWrite a d (shiftedIn n k r s) = shiftedIn (n + d.toNat % 2 * 2 ^ k) (k + 1) r s := by
  have room : n < 2 ^ 5 := small.trans (Nat.pow_lt_pow_right (by decide) (by omega))
  rw [busWrite_serial rom rfl bit, if_neg (by simp; omega)]
  simp only [BitVec.toNat_ofNat, Nat.mod_eq_of_lt room, or_bit_eq_add small]
  rfl

theorem busWrite_shiftedIn_fifth (last : k = 4) : busWrite a d (shiftedIn n k r s) =
    Spec.dispatched a (n + d.toNat % 2 * 2 ^ k) { r with shift := 0, count := 0 } s := by
  subst last
  have room : n < 2 ^ 5 := small.trans (by decide)
  rw [busWrite_serial rom rfl bit, if_pos rfl]
  simp only [BitVec.toNat_ofNat, Nat.mod_eq_of_lt room, or_bit_eq_add small]
  rfl

end

/-- Settles O59: one write at a time, then the five of them. -/
theorem fiveSerialWritesLoadARegister : Obligations.FiveSerialWritesLoadARegister := by
  intro s r regs
  refine ⟨fun a d rom => ⟨busWrite_reset rom regs, fun bit => ⟨fun more => ?_, fun last => ?_⟩⟩, ?_⟩
  · rw [busWrite_serial rom regs bit, if_neg (by omega), shiftedIn]
  · rw [busWrite_serial rom regs bit, if_pos (by omega)]
  intro a1 a2 a3 a4 a5 d1 d2 d3 d4 d5 rom1 rom2 rom3 rom4 rom5 shift count bit1 bit2 bit3 bit4 bit5
  have value : 0 + d1.toNat % 2 * 2 ^ 0 + d2.toNat % 2 * 2 ^ 1 + d3.toNat % 2 * 2 ^ 2 + d4.toNat % 2 * 2 ^ 3 +
      d5.toNat % 2 * 2 ^ 4 = Spec.serialValue d1 d2 d3 d4 d5 := by
    unfold Spec.serialValue; omega
  calc Spec.serial a1 a2 a3 a4 a5 d1 d2 d3 d4 d5 s
      = Spec.serial a1 a2 a3 a4 a5 d1 d2 d3 d4 d5 (shiftedIn 0 0 r s) := by
        rw [shiftedIn_nothing regs shift count]
    _ = Spec.dispatched a5 (Spec.serialValue d1 d2 d3 d4 d5) r s := by
        rw [Spec.serial, busWrite_shiftedIn r s rom1 bit1 (by omega) (by decide),
          busWrite_shiftedIn r s rom2 bit2 (by omega) (by decide),
          busWrite_shiftedIn r s rom3 bit3 (by omega) (by decide),
          busWrite_shiftedIn r s rom4 bit4 (by omega) (by decide),
          busWrite_shiftedIn_fifth r s rom5 bit5 (by omega) rfl,
          emptied_of_empty shift count, value]

/-! ### The windows of the modes (R1327, R1328) -/

section

variable {c : Cartridge} {r : Mmc1}

theorem mmc1Prg_mode3 (mode : r.control.toNat / 4 % 4 = 3) :
    mmc1Prg c r = (16384 * (r.prg.toNat % c.prgPages), 16384 * (c.prgPages - 1)) := by
  rw [mmc1Prg, if_neg (by omega), if_pos mode]

theorem mmc1Prg_mode2 (mode : r.control.toNat / 4 % 4 = 2) :
    mmc1Prg c r = (16384 * 0, 16384 * (r.prg.toNat % c.prgPages)) := by
  rw [mmc1Prg, if_pos mode]

theorem mmc1Prg_pair (mode : r.control.toNat / 4 % 4 < 2) :
    mmc1Prg c r =
      (16384 * (r.prg.toNat / 2 * 2 % c.prgPages), 16384 * ((r.prg.toNat / 2 * 2 + 1) % c.prgPages)) := by
  have clear : ∀ p : BitVec 4, (p &&& 0x0E).toNat = p.toNat / 2 * 2 := by decide
  have set : ∀ p : BitVec 4, (p ||| 1).toNat = p.toNat / 2 * 2 + 1 := by decide
  rw [mmc1Prg, if_neg (by omega), if_neg (by omega), clear, set]

theorem mmc1Chr_4k (mode : r.control.toNat / 16 = 1) :
    mmc1Chr c r = (4096 * (r.chr0.toNat % nChr4 c), 4096 * (r.chr1.toNat % nChr4 c)) := by
  have bit : ∀ v : BitVec 5, v.toNat / 16 = 1 → v.getLsbD 4 = true := by decide
  rw [mmc1Chr, if_pos (bit _ mode)]

theorem mmc1Chr_8k (mode : r.control.toNat / 16 = 0) :
    mmc1Chr c r =
      (4096 * (r.chr0.toNat / 2 * 2 % nChr4 c), 4096 * ((r.chr0.toNat / 2 * 2 + 1) % nChr4 c)) := by
  have bit : ∀ v : BitVec 5, v.toNat / 16 = 0 → ¬ v.getLsbD 4 = true := by decide
  have clear : ∀ v : BitVec 5, (v &&& 0x1E).toNat = v.toNat / 2 * 2 := by decide
  rw [mmc1Chr, if_neg (bit _ mode), clear]

end

/-- Settles O60: mode by mode. -/
theorem shiftRegisterWindowsFollowTheirModes : Obligations.ShiftRegisterWindowsFollowTheirModes := by
  intro s r a derived pages regs rom n m pm
  have win : s.mapper.win = recompute s.cart (.shiftReg r) := derived.trans (by rw [regs])
  have prg {low high : Nat} (banks : mmc1Prg s.cart r = (16384 * low, 16384 * high)) (hlow : low < n)
      (hhigh : high < n) : prgRead a s = Spec.prgBank (if a.toNat < 0xC000 then low else high) a s :=
    prgRead_of_banks rom (by rw [win, recompute, banks]) (by rw [win, recompute, banks]) hlow hhigh
  have chr {low high : Nat} (banks : mmc1Chr s.cart r = (low, high)) :
      s.mapper.win.chr0 = low ∧ s.mapper.win.chr1 = high := by
    rw [win, recompute, banks]; exact ⟨rfl, rfl⟩
  have wraps (b : Nat) : b % n < n := Nat.mod_lt b pages
  exact ⟨fun mode => prg (mmc1Prg_mode3 mode) (wraps _) (Nat.sub_lt pages (by decide)),
    fun mode => prg (mmc1Prg_mode2 mode) pages (wraps _), fun mode => prg (mmc1Prg_pair mode) (wraps _) (wraps _),
    fun mode => chr (mmc1Chr_4k mode), fun mode => chr (mmc1Chr_8k mode)⟩

end Sys2Proof.Machine
